-- ==== Sys2Proof/Word.lean ====
section
/-! DEFINITION. The word types of the LZW core: bytes, 12-bit codes, command words, selector words. -/

namespace Sys2Proof

/-- A 32-bit host command word (R56). -/
abbrev Word := BitVec 32

/-- A byte (R8). -/
abbrev Byte := BitVec 8

/-- A 12-bit code (R6, R49). -/
abbrev Code := BitVec 12

/-- A 16-bit internal selector word (R61). -/
abbrev UopWord := BitVec 16

/-- A byte string (R9). -/
abbrev Bytes := List Byte

end Sys2Proof
end

