-- ==== Sys2Proof/Config.lean ====
section
/-! DEFINITION. The implementation parameters of 00_scope.md R6 and R7, and the model's one free value. The
constants that R7 derives are written as their values; Laws/State.lean proves R7's formulas for them. -/

namespace Sys2Proof.Config

/-- The code width W (R6). -/
abbrev codeWidth : Nat := 12

/-- SENT = 2^W - 1 = 4095, the sentinel (R7). -/
abbrev sentinel : Nat := 4095

/-- NLIT, the number of literal codes (R7). -/
abbrev numLiterals : Nat := 256

/-- FIRST_DYN, the first assignable dynamic code (R7). -/
abbrev firstDyn : Nat := 256

/-- LAST_DYN = 2^W - 2 = 4094, the last assignable dynamic code (R7). -/
abbrev lastDyn : Nat := 4094

/-- DYN_SLOTS = LAST_DYN - FIRST_DYN + 1, the dynamic codes of one epoch (R7). -/
abbrev dynSlots : Nat := 3839

/-- MAX_MATCH_LEN = DYN_SLOTS + 1, the longest S (R7, R83). -/
abbrev maxMatchLen : Nat := 3840

/-- MAX_ENTRY_LEN = DYN_SLOTS + 2, the longest dictionary entry (R7, R83). -/
abbrev maxEntryLen : Nat := 3841

/-- CNT_W, the width of NFILES and FIDX (R7). -/
abbrev countWidth : Nat := 32

/-- FREE VALUE (DESIGN CHOICE, log entry 13): the S_CODE field of the read window when S is not empty
and no code of the current epoch holds S. R27 states no value there; R82 says it does not happen. -/
opaque sCodeUnstated : Bytes → Code

end Sys2Proof.Config
end

