-- ==== Sys2Proof/Syntax.lean ====
section
/-! DEFINITION. The instructions: one constructor for each row of spec/opcode_table.json. -/

namespace Sys2Proof

/-- The 30 rows of spec/opcode_table.json, in the table's order: 13 host commands and 3 reserved
opcodes (format CMD32, R58), 10 internal micro-operations and the reserved selectors (format UOP, R61),
3 code classes (format CODE12, R50). -/
inductive Instr where
  /-- C_START: open a compress operation (R98). -/
  | cStart
  /-- C_NAMEB b: write one byte of the current file name (R99). -/
  | cNameb (b : Byte)
  /-- C_NAMEEND: end the current name line (R100). -/
  | cNameend
  /-- C_HDREND: write the blank line that ends the header (R101). -/
  | cHdrend
  /-- C_FBEGIN: start the next file's segment (R79). -/
  | cFbegin
  /-- C_DATA b: feed one input byte to the encoder (R80). -/
  | cData (b : Byte)
  /-- C_FEND: end of the file's input (R81). -/
  | cFend
  /-- C_FINISH: close the compress operation (R102). -/
  | cFinish
  /-- D_START: open a decompress operation (R104). -/
  | dStart
  /-- D_NAME: read one header line (R105). -/
  | dName
  /-- D_FILE: decode the next file segment (R85). -/
  | dFile
  /-- D_FINISH: close the decompress operation (R106). -/
  | dFinish
  /-- ABORT: return the core to its reset state (R108). -/
  | abort
  /-- A word with the reserved opcode 0x0; `rest` is bits [27:0] (R110). -/
  | illegalOp0 (rest : BitVec 28)
  /-- A word with the reserved opcode 0xE (R110). -/
  | illegalOpE (rest : BitVec 28)
  /-- A word with the reserved opcode 0xF (R110). -/
  | illegalOpF (rest : BitVec 28)
  /-- BC_WRITE code (R64). -/
  | bcWrite (code : Code)
  /-- BC_READ (R67). -/
  | bcRead
  /-- BC_WCLR (R66). -/
  | bcWclr
  /-- BC_RCLR (R68). -/
  | bcRclr
  /-- DICT_RESET (R72). -/
  | dictReset
  /-- DICT_ALLOC (R74). -/
  | dictAlloc
  /-- DICT_ELOOKUP, its string on the string bus (R75). -/
  | dictElookup
  /-- DICT_EINSERT code, its string on the string bus (R76). -/
  | dictEinsert (code : Code)
  /-- DICT_DLOOKUP code (R77). -/
  | dictDlookup (code : Code)
  /-- DICT_DINSERT code, its string on the string bus (R78). -/
  | dictDinsert (code : Code)
  /-- A selector word with SEL in 0xA..0xF, never issued (R61). -/
  | uopReserved (sel : BitVec 4) (code : Code)
  /-- SENT, the code 0xFFF (R90). -/
  | sent
  /-- LIT d, a code 0x000..0x0FF (R91). -/
  | lit (d : Byte)
  /-- DYN c, a code 0x100..0xFFE (R92). -/
  | dyn (c : Code)
  deriving DecidableEq, Repr

end Sys2Proof
end

