-- ==== Sys2Proof/WellFormed.lean ====
section
/-! DEFINITION. Which terms of `Instr` are instructions of the hardware: the two range checks the
encodings leave to a predicate. -/

namespace Sys2Proof

/-- SEL of a reserved selector is 0xA..0xF (R61); a DYN code is 0x100..0xFFE (R50). Every other
constructor admits every value of its operand. -/
def Instr.wf : Instr → Bool
  | .uopReserved sel _ => decide (0xA ≤ sel.toNat)
  | .dyn c => decide (0x100 ≤ c.toNat) && decide (c.toNat ≤ 0xFFE)
  | .cStart | .cNameb _ | .cNameend | .cHdrend | .cFbegin | .cData _ | .cFend | .cFinish
  | .dStart | .dName | .dFile | .dFinish | .abort
  | .illegalOp0 _ | .illegalOpE _ | .illegalOpF _
  | .bcWrite _ | .bcRead | .bcWclr | .bcRclr | .dictReset | .dictAlloc | .dictElookup
  | .dictEinsert _ | .dictDlookup _ | .dictDinsert _ | .sent | .lit _ => true

end Sys2Proof
end

