-- ==== Sys2Proof/Decode.lean ====
section
/-! DEFINITION. The three decoders (command words, selector words, codes), each total on its words, and
after them the encoder. -/

namespace Sys2Proof

/-- `v[hi:lo]`: bits hi down to lo of v as an unsigned number (R9). -/
def field (v hi lo : Nat) : Nat := v / 2 ^ lo % 2 ^ (hi + 1 - lo)

/-- Why a command word is no row of the opcode map although its OP is one (R59 b and c). -/
inductive Reject where
  /-- RSV[27:8] is not 0 (R59 b). -/
  | rsvNonzero
  /-- IMM8 is not 0 and OP takes no byte (R59 c). -/
  | immNonzero
  deriving DecidableEq, Repr

/-- What the command decoder answers. -/
inductive Decoded where
  | ok (i : Instr)
  | reject (r : Reject)
  deriving DecidableEq, Repr

/-- The word of an instruction in its own format. -/
inductive Encoded where
  | cmd (w : Word)
  | uop (w : UopWord)
  | code (c : Code)
  deriving DecidableEq, Repr

/-- A command that takes a byte: RSV must be 0 (R58, R59). -/
def byteCommand (w : Word) (f : Byte → Instr) : Decoded :=
  if field w.toNat 27 8 ≠ 0 then .reject .rsvNonzero
  else .ok (f (BitVec.ofNat 8 (field w.toNat 7 0)))

/-- A command that takes no byte: RSV and IMM8 must be 0 (R58, R59). -/
def plainCommand (w : Word) (i : Instr) : Decoded :=
  if field w.toNat 27 8 ≠ 0 then .reject .rsvNonzero
  else if field w.toNat 7 0 ≠ 0 then .reject .immNonzero
  else .ok i

/-- Bits [27:0] of a word with a reserved opcode. -/
def restOf (w : Word) : BitVec 28 := BitVec.ofNat 28 (field w.toNat 27 0)

/-- The opcode map of R58, by OP = w[31:28]. -/
def decodeCmd (w : Word) : Decoded :=
  match field w.toNat 31 28 with
  | 0x0 => .ok (.illegalOp0 (restOf w))
  | 0x1 => plainCommand w .cStart
  | 0x2 => byteCommand w .cNameb
  | 0x3 => plainCommand w .cNameend
  | 0x4 => plainCommand w .cHdrend
  | 0x5 => plainCommand w .cFbegin
  | 0x6 => byteCommand w .cData
  | 0x7 => plainCommand w .cFend
  | 0x8 => plainCommand w .cFinish
  | 0x9 => plainCommand w .dStart
  | 0xA => plainCommand w .dName
  | 0xB => plainCommand w .dFile
  | 0xC => plainCommand w .dFinish
  | 0xD => plainCommand w .abort
  | 0xE => .ok (.illegalOpE (restOf w))
  | _ => .ok (.illegalOpF (restOf w))

/-- The selector map of R61, by SEL = w[15:12]; CODE = w[11:0]. The operand bits of a micro-operation
without a code operand are not looked at (the table's mask is 0xF000). -/
def decodeUop (w : UopWord) : Instr :=
  let code : Code := BitVec.ofNat 12 (field w.toNat 11 0)
  match field w.toNat 15 12 with
  | 0x0 => .bcWrite code
  | 0x1 => .bcRead
  | 0x2 => .bcWclr
  | 0x3 => .bcRclr
  | 0x4 => .dictReset
  | 0x5 => .dictAlloc
  | 0x6 => .dictElookup
  | 0x7 => .dictEinsert code
  | 0x8 => .dictDlookup code
  | 0x9 => .dictDinsert code
  | sel => .uopReserved (BitVec.ofNat 4 sel) code

/-- The code classes of R50, tested in its order. -/
def decodeCode (c : Code) : Instr :=
  if c.toNat = Config.sentinel then .sent
  else if c.toNat < Config.numLiterals then .lit (BitVec.ofNat 8 c.toNat)
  else .dyn c

/-- The decoder of a word in a known format. -/
def decode : Encoded → Decoded
  | .cmd w => decodeCmd w
  | .uop w => .ok (decodeUop w)
  | .code c => .ok (decodeCode c)

/-- The command word with opcode OP and byte IMM8, RSV = 0 (R56). -/
def cmdWord (op : Nat) (imm : Byte) : Word := BitVec.ofNat 32 (op * 2 ^ 28 + imm.toNat)

/-- The command word of a reserved opcode and its bits [27:0]. -/
def rawWord (op : Nat) (rest : BitVec 28) : Word := BitVec.ofNat 32 (op * 2 ^ 28 + rest.toNat)

/-- The selector word with SEL and CODE (R61). -/
def uopWord (sel : Nat) (code : Code) : UopWord := BitVec.ofNat 16 (sel * 2 ^ 12 + code.toNat)

/-- The encoder: the word of an instruction, from R50, R58 and R61; unused bits are 0. -/
def encode : Instr → Encoded
  | .cStart => .cmd (cmdWord 0x1 0)
  | .cNameb b => .cmd (cmdWord 0x2 b)
  | .cNameend => .cmd (cmdWord 0x3 0)
  | .cHdrend => .cmd (cmdWord 0x4 0)
  | .cFbegin => .cmd (cmdWord 0x5 0)
  | .cData b => .cmd (cmdWord 0x6 b)
  | .cFend => .cmd (cmdWord 0x7 0)
  | .cFinish => .cmd (cmdWord 0x8 0)
  | .dStart => .cmd (cmdWord 0x9 0)
  | .dName => .cmd (cmdWord 0xA 0)
  | .dFile => .cmd (cmdWord 0xB 0)
  | .dFinish => .cmd (cmdWord 0xC 0)
  | .abort => .cmd (cmdWord 0xD 0)
  | .illegalOp0 r => .cmd (rawWord 0x0 r)
  | .illegalOpE r => .cmd (rawWord 0xE r)
  | .illegalOpF r => .cmd (rawWord 0xF r)
  | .bcWrite c => .uop (uopWord 0x0 c)
  | .bcRead => .uop (uopWord 0x1 0)
  | .bcWclr => .uop (uopWord 0x2 0)
  | .bcRclr => .uop (uopWord 0x3 0)
  | .dictReset => .uop (uopWord 0x4 0)
  | .dictAlloc => .uop (uopWord 0x5 0)
  | .dictElookup => .uop (uopWord 0x6 0)
  | .dictEinsert c => .uop (uopWord 0x7 c)
  | .dictDlookup c => .uop (uopWord 0x8 c)
  | .dictDinsert c => .uop (uopWord 0x9 c)
  | .uopReserved sel c => .uop (uopWord sel.toNat c)
  | .sent => .code (BitVec.ofNat 12 Config.sentinel)
  | .lit d => .code (BitVec.ofNat 12 d.toNat)
  | .dyn c => .code c

/-- The format of a table word by its width in bits (DESIGN CHOICE, log entry 12): 32 is a command word
(CMD32); 12 is a code (CODE12); 16 is a code in whole bytes where its top four bits are 0, and a
selector word (UOP) otherwise. -/
def tableWord (nbits w : Nat) : Option Encoded :=
  if nbits = 32 then some (.cmd (BitVec.ofNat 32 w))
  else if nbits = 12 then some (.code (BitVec.ofNat 12 w))
  else if nbits = 16 then
    if field w 15 12 = 0 then some (.code (BitVec.ofNat 12 w)) else some (.uop (BitVec.ofNat 16 w))
  else none

/-- The instruction the decoder reads from a table word. -/
def decodeTableWord (nbits w : Nat) : Option Instr :=
  match tableWord nbits w with
  | none => none
  | some e =>
    match decode e with
    | .ok i => some i
    | .reject _ => none

end Sys2Proof
end

