-- ==== Sys2Proof/Machine/State.lean ====
section
/-! DEFINITION. The state of the core (10_state.md, 20_memory.md) as plain data, the reasons a step can
stop, and the state after reset (R121). -/

namespace Sys2Proof.Machine

/-- MODE, the controller's sequencing state (R13). -/
inductive Mode where
  | idle | chdr | cbody | cfile | dhdr | dbody | dfile | fault
  deriving DecidableEq, Repr

/-- DSTATE, the decoder's micro-state (R26): DS_FIRST, DS_EMIT, DS_NEXT. The value 3 is never used. -/
inductive DState where
  | first | emit | next
  deriving DecidableEq, Repr

/-- FCODE, the fault codes 0 to 9 (R109). Codes 10 to 15 are never raised. -/
inductive FCode where
  | none | illegalCmd | seqError | countError | emptyName | badNameByte | hdrTruncated
  | streamExhausted | decodeMiss | entryTooLong
  deriving DecidableEq, Repr

/-- FINFO, 18 bits in four fields (R20). -/
structure FInfo where
  fval : Code
  frcnt : BitVec 4
  fvalValid : Bool
  frcntValid : Bool
  deriving DecidableEq, Repr

/-- The tags of DOUT events (R40). Tags 5 to 7 are never produced. -/
inductive DTag where
  | data | nameb | nameEnd | hdrEnd | fileEnd
  deriving DecidableEq, Repr

/-- One event of the decompressed-output port (R40); `byte` is 0 for a tag that carries none. -/
structure DEvent where
  tag : DTag
  byte : Byte
  deriving DecidableEq, Repr

/-- The result lines of the internal micro-operation port: the results R61 lists. -/
inductive UopResult where
  | none | code (c : Code) | exhausted | str (x : Bytes) | absent
  deriving DecidableEq, Repr

/-- The dictionary entry memory (R24, R29): pairs of a code and the byte string stored at it, in the
canonical form of `Memory.wf` (Machine/Ops.lean). -/
abbrev Memory := List (Nat × Bytes)

/-- Everything the spec gives the core, and the model's form of the command port and of the internal
micro-operation port (the last four fields: log entries 1 and 3). -/
structure State where
  /-- MODE (R13). -/
  mode : Mode
  /-- BUSY (R14). -/
  busy : Bool
  /-- NFILES (R15). -/
  nfiles : BitVec 32
  /-- FIDX (R16). -/
  fidx : BitVec 32
  /-- NAME_OPEN (R17). -/
  nameOpen : Bool
  /-- LINE_OPEN (R18). -/
  lineOpen : Bool
  /-- TAIL_DROP (R19). -/
  tailDrop : Bool
  /-- TRUNC_SENT (R19). -/
  truncSent : Bool
  /-- FCODE (R20). -/
  fcode : FCode
  /-- FCMD (R20). -/
  fcmd : Word
  /-- FINFO (R20). -/
  finfo : FInfo
  /-- WBITS (R21). -/
  wbits : BitVec 7
  /-- WCNT (R21). -/
  wcnt : BitVec 3
  /-- RBITS (R22). -/
  rbits : BitVec 12
  /-- RCNT (R22). -/
  rcnt : BitVec 4
  /-- NEXT (R23). -/
  nextCode : Code
  /-- ENTRY[256..4094] (R24). -/
  entry : Memory
  /-- S, the encoder's current match (R25). -/
  sbuf : Bytes
  /-- CUR_CODE (R26). -/
  curCode : Code
  /-- CUR_STR (R26). -/
  curStr : Bytes
  /-- DSTATE (R26). -/
  dstate : DState
  /-- AOUT, oldest byte first (R38). -/
  aout : Bytes
  /-- AIN, the bytes not taken yet, next byte first (R39). -/
  ain : Bytes
  /-- DOUT, oldest event first (R40). -/
  dout : List DEvent
  /-- The command port: the host's words the core has not accepted yet, next word first (R47, R96). -/
  cmdq : List Word
  /-- The selector word waiting on the internal micro-operation port (R61). -/
  uopPort : Option UopWord
  /-- The internal string bus: the operand STR of a micro-operation (R61). -/
  strBus : Bytes
  /-- The last result on the internal micro-operation port (R61). -/
  uopRes : UopResult
  deriving DecidableEq, Repr

/-- Why the model stops with a fault. None of these is a fault of the hardware: the hardware's faults are
the FCODE values, and taking one is a next state (R113). -/
inductive Fault where
  /-- Raised by a selector word with SEL in 0xA..0xF: "never issued" (R61). Safe. -/
  | reservedSelector
  /-- Raised by DICT_EINSERT and DICT_DINSERT outside their precondition (R76, R78, R33). Safe. -/
  | insertPrecondition
  /-- Raised by C_DATA and C_FEND when no code of the epoch holds S, which R82 excludes. Safe. -/
  | matchAbsent
  /-- Raised by DS_NEXT when the string whose first byte it takes is empty, which R24 and R26 exclude. Safe. -/
  | emptyString
  /-- Raised by a code when the decoder is not reading one (R50, R86, R88). Safe. -/
  | noCodeExpected
  /-- Raised by a step with BUSY = 1 in a mode without micro-steps, which R14 excludes. Safe. -/
  | busyWithoutCommand
  deriving DecidableEq, Repr

/-- Why the model gives no meaning. -/
inductive Refusal where
  /-- An instruction the model gives no meaning yet (no arm raises it). Safe. -/
  | notModelled (mnemonic : String)
  /-- Raised by a command given to the core while BUSY = 1: "no move" (R48 H1). `step` never raises it:
  the command port waits until BUSY = 0. Safe. -/
  | commandWhileBusy
  deriving DecidableEq, Repr

/-- The outcome of an instruction. -/
abbrev Result := Host.Outcome State Fault Refusal

/-- FINFO = 0. -/
def FInfo.zero : FInfo := ⟨0#12, 0#4, false, false⟩

/-- The state after reset (R121). ENTRY lists nothing (log entry 7); the ports are empty, as before any
host action (log entries 3 and 8). -/
def State.reset : State where
  mode := .idle
  busy := false
  nfiles := 0#32
  fidx := 0#32
  nameOpen := false
  lineOpen := false
  tailDrop := false
  truncSent := false
  fcode := .none
  fcmd := 0#32
  finfo := FInfo.zero
  wbits := 0#7
  wcnt := 0#3
  rbits := 0#12
  rcnt := 0#4
  nextCode := 256#12
  entry := []
  sbuf := []
  curCode := 0#12
  curStr := []
  dstate := .first
  aout := []
  ain := []
  dout := []
  cmdq := []
  uopPort := none
  strBus := []
  uopRes := .none

end Sys2Proof.Machine
end

