-- ==== Sys2Proof/Machine/Ops.lean ====
section
/-! DEFINITION. The named operations: dictionary memory access, the ports, taking a fault and returning
from it, the legality matrix and command dispatch. -/

namespace Sys2Proof.Machine

/-! ## The dictionary entry memory (20_memory.md R29 to R34) -/

/-- What an unlisted entry reads as (DESIGN CHOICE, log entry 7). -/
abbrev unlistedEntry : Bytes := []

/-- Codes from `lo` on, strictly rising, and no entry equal to what an unlisted one reads as. -/
def Memory.risingFrom : Nat → Memory → Bool
  | _, [] => true
  | lo, (c, x) :: m => decide (lo ≤ c) && decide (x ≠ unlistedEntry) && Memory.risingFrom (c + 1) m

/-- The canonical form of the entry memory: equal memories are equal lists. -/
def Memory.wf (m : Memory) : Bool := Memory.risingFrom 0 m

/-- MemRead(c, n): the whole string stored at code c; n is its length (R32). -/
def memRead (c : Nat) : Memory → Bytes
  | [] => unlistedEntry
  | (k, x) :: m => if k = c then x else memRead c m

/-- MemWrite(c, n, x): store the whole string x at code c (R33), keeping the canonical form. -/
def memWrite (c : Nat) (x : Bytes) : Memory → Memory
  | [] => if x = unlistedEntry then [] else [(c, x)]
  | (k, y) :: m =>
    if c < k then (if x = unlistedEntry then (k, y) :: m else (c, x) :: (k, y) :: m)
    else if c = k then (if x = unlistedEntry then m else (c, x) :: m)
    else (k, y) :: memWrite c x m

/-! ## The ports (R38 to R40) -/

/-- AoutPut, for bytes in order (R38). -/
def aoutPut (bs : Bytes) (s : State) : State := { s with aout := s.aout ++ bs }

/-- AinGet: the next archive input byte, or EMPTY, written `none` (R39). -/
def ainGet (s : State) : Option Byte × State :=
  match s.ain with
  | [] => (none, s)
  | b :: rest => (some b, { s with ain := rest })

/-- DoutPut, for events in order (R40). -/
def doutPut (es : List DEvent) (s : State) : State := { s with dout := s.dout ++ es }

/-! ## Fault entry and exit (60_exceptions.md R113, R116) -/

/-- FINFO with FVAL = c and FVAL_VALID = 1 (R109). -/
def infoFval (c : Code) : FInfo := ⟨c, 0#4, true, false⟩

/-- FINFO with FRCNT = n and FRCNT_VALID = 1 (R109). -/
def infoFrcnt (n : BitVec 4) : FInfo := ⟨0#12, n, false, true⟩

/-- `raise F(info)`: enter the FAULT mode, recording the code, the command's word and the info; BUSY is
cleared and nothing else is written (R113). -/
def raise (f : FCode) (w : Word) (info : FInfo) (s : State) : State :=
  { s with fcode := f, fcmd := w, finfo := info, busy := false, mode := .fault }

/-- The return from FAULT, and reset: every register of 10_state.md takes its reset value; ENTRY and the
ports are not touched (R108, R116, R121). -/
def resetRegisters (s : State) : State :=
  { State.reset with
    entry := s.entry, aout := s.aout, ain := s.ain, dout := s.dout, cmdq := s.cmdq
    uopPort := s.uopPort, strBus := s.strBus, uopRes := s.uopRes }

/-! ## Dispatch (44_framer.md R96, R97) -/

/-- LEGAL: the opcodes each mode admits (R97). ABORT is legal in every mode (R58, R108): the matrix has no
command in DFILE because BUSY = 1 there, so that none is issued (log entry 10). -/
def legalOps : Mode → List Nat
  | .idle => [0x1, 0x9, 0xD]
  | .chdr => [0x2, 0x3, 0x4, 0xD]
  | .cbody => [0x5, 0x8, 0xD]
  | .cfile => [0x6, 0x7, 0xD]
  | .dhdr => [0xA, 0xD]
  | .dbody => [0xB, 0xC, 0xD]
  | .dfile => [0xD]
  | .fault => [0xD]

/-- Whether MODE m admits the opcode. -/
def legal (m : Mode) (op : Nat) : Bool := (legalOps m).contains op

/-- The dispatch of a legal word other than ABORT (R96): no move while BUSY = 1; refused without any
change in FAULT; SEQ_ERROR where the mode does not admit it; otherwise the command's own rule. -/
def command (op : Nat) (imm : Byte) (body : State → Result) (s : State) : Result :=
  if s.busy then .refused .commandWhileBusy
  else if s.mode = .fault then .next s
  else if legal s.mode op then body s
  else .next (raise .seqError (cmdWord op imm) FInfo.zero s)

/-- The dispatch of an illegal word (R59, R96, R110): refused in FAULT, otherwise ILLEGAL_CMD, before the
mode is checked. -/
def illegalWord (w : Word) (s : State) : Result :=
  if s.busy then .refused .commandWhileBusy
  else if s.mode = .fault then .next s
  else .next (raise .illegalCmd w FInfo.zero s)

/-- COUNT_ERROR of the command with this opcode (R109: FINFO = 0). -/
def countError (op : Nat) (s : State) : State := raise .countError (cmdWord op 0) FInfo.zero s

end Sys2Proof.Machine
end

