-- ==== Sys2Proof/Machine/Operands.lean ====
section
/-! DEFINITION. The operand forms: IMM8 reaches a meaning as a byte and CODE as a code, both already
extracted by the decoder; the string bus and the literal strings are read here. -/

namespace Sys2Proof.Machine

/-- STR, the string on the internal string bus (R61). -/
def strOperand (s : State) : Bytes := s.strBus

/-- The string [b] of IMM8 = b (R57, R80). -/
def immString (b : Byte) : Bytes := [b]

/-- The string of a literal code c < 256: [c[7:0]] (R30, R50). -/
def literalString (c : Code) : Bytes := [c.setWidth 8]

/-- The code of a one-byte string (R30, R75). -/
def literalCode (b : Byte) : Code := b.setWidth 12

/-- The code of LIT d (R50). -/
def litOperand (d : Byte) : Code := d.setWidth 12

end Sys2Proof.Machine
end

