-- ==== Sys2Proof/Machine/BitCodec.lean ====
section
/-! DEFINITION. BitCodec, the bit-stream packer and unpacker (40_bitcodec.md R64 to R69): its four
micro-operations, and their meanings as selector words. -/

namespace Sys2Proof.Machine

/-- The bytes BC_WRITE emits from the n low bits of acc, oldest 8 bits first; `fuel` bounds the loop (R64). -/
def drainBytes (acc : Nat) : (fuel n : Nat) → Bytes
  | 0, _ => []
  | fuel + 1, n =>
    if 8 ≤ n then BitVec.ofNat 8 (field acc (n - 1) (n - 8)) :: drainBytes acc fuel (n - 8) else []

/-- BC_WRITE(code): append one 12-bit code to the archive body, MSB first (R64). -/
def bcWrite (code : Code) (s : State) : State :=
  let acc := s.wbits.toNat * 2 ^ Config.codeWidth + code.toNat
  let n := s.wcnt.toNat + Config.codeWidth
  let t := aoutPut (drainBytes acc n n) s
  { t with wbits := BitVec.ofNat 7 (acc % 2 ^ (n % 8)), wcnt := BitVec.ofNat 3 (n % 8) }

/-- BC_WCLR: empty the write BitBuffer (R66). -/
def bcWclr (s : State) : State := { s with wbits := 0#7, wcnt := 0#3 }

/-- BC_RCLR: empty the read BitBuffer (R68). -/
def bcRclr (s : State) : State := { s with rbits := 0#12, rcnt := 0#4 }

/-- The loop of BC_READ: pull bytes while n < W. Answers acc, n and the input that is left (R67). -/
def pullBytes (acc n : Nat) : Bytes → Nat × Nat × Bytes
  | [] => (acc, n, [])
  | b :: rest =>
    if n < Config.codeWidth then pullBytes (acc * 2 ^ 8 + b.toNat) (n + 8) rest
    else (acc, n, b :: rest)

/-- BC_READ(): the next 12-bit code, or EXHAUSTED, written `none` (R67). -/
def bcRead (s : State) : Option Code × State :=
  let p := pullBytes s.rbits.toNat s.rcnt.toNat s.ain
  let acc := p.1
  let n := p.2.1
  let t := { s with ain := p.2.2 }
  if n < Config.codeWidth then
    (none, { t with rbits := BitVec.ofNat 12 acc, rcnt := BitVec.ofNat 4 n })
  else
    let m := n - Config.codeWidth
    (some (BitVec.ofNat 12 (field acc (n - 1) m)),
      { t with rbits := BitVec.ofNat 12 (acc % 2 ^ m), rcnt := BitVec.ofNat 4 m })

/-- The result lines after BC_READ (R61). -/
def readResult : Option Code → UopResult
  | some c => .code c
  | none => .exhausted

/-- BC_WRITE as a selector word (R61, R64). -/
def execBcWrite (code : Code) (s : State) : Result := .next (bcWrite code s)

/-- BC_READ as a selector word (R61, R67). -/
def execBcRead (s : State) : Result :=
  .next { (bcRead s).2 with uopRes := readResult (bcRead s).1 }

/-- BC_WCLR as a selector word (R61, R66). -/
def execBcWclr (s : State) : Result := .next (bcWclr s)

/-- BC_RCLR as a selector word (R61, R68). -/
def execBcRclr (s : State) : Result := .next (bcRclr s)

end Sys2Proof.Machine
end

