-- ==== Sys2Proof/Machine/Dictionary.lean ====
section
/-! DEFINITION. The dictionary (41_dictionary.md R70 to R78): its six micro-operations, and their
meanings as selector words. -/

namespace Sys2Proof.Machine

/-- DICT_RESET: start a new epoch; the entries stay where they are, stale (R72, R34). -/
def dictReset (s : State) : State := { s with nextCode := BitVec.ofNat 12 Config.firstDyn }

/-- DICT_ALLOC: the code the next insertion must use, resetting first if the epoch is full (R74). -/
def dictAlloc (s : State) : Code × State :=
  let t := if s.nextCode.toNat = Config.sentinel then dictReset s else s
  (t.nextCode, t)

/-- Whether a listed entry is present in the epoch and holds x (R31, R75). -/
def holdsString (hi : Nat) (x : Bytes) (e : Nat × Bytes) : Bool :=
  decide (Config.firstDyn ≤ e.1) && decide (e.1 < hi) && decide (e.2 = x)

/-- DICT_ELOOKUP(x): the code of a string, by whole-string equality, lowest code first; `none` is absent
(R75). The memory lists its codes in rising order, so the first hit is the lowest. -/
def dictElookup (x : Bytes) (s : State) : Option Code :=
  match x with
  | [b] => some (literalCode b)
  | _ => (s.entry.find? (holdsString s.nextCode.toNat x)).map fun e => BitVec.ofNat 12 e.1

/-- DICT_DLOOKUP(c): the string of a code, D(c); `none` is absent (R29, R77). -/
def dictDlookup (c : Code) (s : State) : Option Bytes :=
  if c.toNat < Config.numLiterals then some (literalString c)
  else if c.toNat < s.nextCode.toNat then some (memRead c.toNat s.entry)
  else none

/-- The precondition of an insertion: c = NEXT, 256 ≤ c ≤ 4094, and 2 to MAX_ENTRY_LEN bytes (R33, R76, R78). -/
def insertable (c : Code) (x : Bytes) (s : State) : Bool :=
  decide (c = s.nextCode) && decide (Config.firstDyn ≤ c.toNat) && decide (c.toNat ≤ Config.lastDyn) &&
    decide (2 ≤ x.length) && decide (x.length ≤ Config.maxEntryLen)

/-- MemWrite(c, |x|, x) and NEXT <- c + 1; `none` outside the precondition (R76, R78; log entry 5). -/
def insertEntry (c : Code) (x : Bytes) (s : State) : Option State :=
  if insertable c x s then
    some { s with entry := memWrite c.toNat x s.entry, nextCode := BitVec.ofNat 12 (c.toNat + 1) }
  else none

/-- DICT_EINSERT(x, c) (R76). -/
def dictEinsert (x : Bytes) (c : Code) (s : State) : Option State := insertEntry c x s

/-- DICT_DINSERT(c, x) (R78). -/
def dictDinsert (c : Code) (x : Bytes) (s : State) : Option State := insertEntry c x s

/-- The result lines after a lookup of a string (R61). -/
def codeResult : Option Code → UopResult
  | some c => .code c
  | none => .absent

/-- The result lines after a lookup of a code (R61). -/
def strResult : Option Bytes → UopResult
  | some x => .str x
  | none => .absent

/-- An insertion's outcome: the next state, or the stop outside its precondition (log entry 5). -/
def inserted : Option State → Result
  | some t => .next t
  | none => .fault .insertPrecondition

/-- DICT_RESET as a selector word (R61, R72). -/
def execDictReset (s : State) : Result := .next (dictReset s)

/-- DICT_ALLOC as a selector word (R61, R74). -/
def execDictAlloc (s : State) : Result :=
  .next { (dictAlloc s).2 with uopRes := .code (dictAlloc s).1 }

/-- DICT_ELOOKUP of the string on the bus (R61, R75). -/
def execDictElookup (s : State) : Result :=
  .next { s with uopRes := codeResult (dictElookup (strOperand s) s) }

/-- DICT_EINSERT of the string on the bus (R61, R76). -/
def execDictEinsert (code : Code) (s : State) : Result :=
  inserted (dictEinsert (strOperand s) code s)

/-- DICT_DLOOKUP as a selector word (R61, R77). -/
def execDictDlookup (code : Code) (s : State) : Result :=
  .next { s with uopRes := strResult (dictDlookup code s) }

/-- DICT_DINSERT of the string on the bus (R61, R78). -/
def execDictDinsert (code : Code) (s : State) : Result :=
  inserted (dictDinsert code (strOperand s) s)

/-- A selector word with SEL in 0xA..0xF: "never issued" (R61), so the machine is stuck (log entry 6). -/
def execUopReserved (_sel : BitVec 4) (_code : Code) (_s : State) : Result := .fault .reservedSelector

end Sys2Proof.Machine
end

