-- ==== Sys2Proof/Machine/Flags.lean ====
section
/-! DEFINITION. Every flag computation: S_VALID, TAIL_DROP, the truncated-sentinel test behind
TRUNC_SENT, and the field encodings the STATUS register shows. NAME_OPEN and LINE_OPEN are only set and
cleared, by the command that names them. -/

namespace Sys2Proof.Machine

/-- S_VALID = (|S| > 0) (R25). -/
def sValid (s : State) : Bool := !s.sbuf.isEmpty

/-- TAIL_DROP as C_FINISH computes it: WCNT ≠ 0 (R102). -/
def tailDropOf (s : State) : Bool := decide (s.wcnt ≠ 0#3)

/-- FIDX = NFILES - 1, compared without wrap (R16, R93; log entry 18). -/
def lastSegment (s : State) : Bool := decide (s.fidx.toNat + 1 = s.nfiles.toNat)

/-- The state in which an exhausted read is the truncated final sentinel: the last segment, RCNT = W - 4
and RBITS = 2^(W-4) - 1 (R93, R94). -/
def truncatedSentinel (s : State) : Bool :=
  lastSegment s && decide (s.rcnt.toNat = Config.codeWidth - 4) &&
    decide (s.rbits.toNat = 2 ^ (Config.codeWidth - 4) - 1)

/-- MODE as its number (R13). -/
def Mode.bits : Mode → BitVec 3
  | .idle => 0 | .chdr => 1 | .cbody => 2 | .cfile => 3
  | .dhdr => 4 | .dbody => 5 | .dfile => 6 | .fault => 7

/-- DSTATE as its number (R26). -/
def DState.bits : DState → BitVec 2
  | .first => 0 | .emit => 1 | .next => 2

/-- FCODE as its number (R109). -/
def FCode.bits : FCode → BitVec 4
  | .none => 0 | .illegalCmd => 1 | .seqError => 2 | .countError => 3 | .emptyName => 4
  | .badNameByte => 5 | .hdrTruncated => 6 | .streamExhausted => 7 | .decodeMiss => 8
  | .entryTooLong => 9

/-- A DOUT tag as its number (R40). -/
def DTag.bits : DTag → BitVec 3
  | .data => 0 | .nameb => 1 | .nameEnd => 2 | .hdrEnd => 3 | .fileEnd => 4

end Sys2Proof.Machine
end

