-- ==== Sys2Proof/Machine/Decoder.lean ====
section
/-! DEFINITION. The decoder: D_FILE and its micro-steps, and the code classes SENT, LIT and DYN
(43_decoder.md R85 to R95). -/

namespace Sys2Proof.Machine

/-- The word of D_FILE, which its micro-steps record in FCMD (R113). -/
def dFileWord : Word := cmdWord 0xB 0

/-- The acceptance step of D_FILE (R85). -/
def acceptFile (s : State) : Result :=
  if s.nfiles.toNat ≤ s.fidx.toNat then .next (countError 0xB s)
  else .next { dictReset s with busy := true, mode := .dfile, dstate := .first }

/-- D_FILE: decode the next file segment; this is its acceptance, and the micro-steps follow (R85). -/
def execDFile (s : State) : Result := command 0xB 0 acceptFile s

/-- SEG_END(): the segment is complete (R89). -/
def segEnd (s : State) : State :=
  let t := doutPut [⟨.fileEnd, 0⟩] s
  { t with fidx := t.fidx + 1, dstate := .first, busy := false, mode := .dbody }

/-- EXHAUST(): the truncated final sentinel, or STREAM_EXHAUSTED (R93, R94). -/
def exhaust (s : State) : State :=
  if truncatedSentinel s then segEnd { s with truncSent := true }
  else raise .streamExhausted dFileWord (infoFrcnt s.rcnt) s

/-- Micro-step DS_EMIT: write the current string (R87). -/
def dsEmit (s : State) : State :=
  { doutPut (s.curStr.map fun b => ⟨.data, b⟩) s with dstate := .next }

/-- The decoder's new current code and string, ready for DS_EMIT (R86, R88). -/
def setCurrent (r : Code) (x : Bytes) (s : State) : State :=
  { s with curCode := r, curStr := x, dstate := .emit }

/-- DS_FIRST with a code other than the sentinel (R86). -/
def resolveFirst (r : Code) (s : State) : Result :=
  match dictDlookup r s with
  | none => .next (raise .decodeMiss dFileWord (infoFval r) s)
  | some x => .next (setCurrent r x s)

/-- first_char of DS_NEXT, against n = NEXT after the allocation: the first byte of D(r) for r < n, of
CUR_STR for r = n, the KwKwK case (R88, R92). `none` where that string is empty. -/
def firstChar (r n : Code) (s : State) : Option Byte :=
  if r.toNat < n.toNat then (dictDlookup r s).bind List.head? else s.curStr.head?

/-- DS_NEXT with a code other than the sentinel: allocate first, then resolve, then insert (R88, R92, R125). -/
def resolveNext (r : Code) (s : State) : Result :=
  let a := dictAlloc s
  if a.1.toNat < r.toNat then .next (raise .decodeMiss dFileWord (infoFval r) a.2)
  else
    match firstChar r a.1 a.2 with
    | none => .fault .emptyString
    | some fc =>
      if Config.maxEntryLen < s.curStr.length + 1 then
        .next (raise .entryTooLong dFileWord (infoFval r) a.2)
      else
        match dictDinsert a.1 (s.curStr ++ [fc]) a.2 with
        | none => .fault .insertPrecondition
        | some t =>
          match dictDlookup r t with
          | none => .fault .emptyString
          | some x => .next (setCurrent r x t)

/-- Whether the decoder is reading a code: D_FILE runs, in DS_FIRST or DS_NEXT (R86, R88). -/
def readingCode (s : State) : Bool :=
  s.busy && decide (s.mode = .dfile) && decide (s.dstate ≠ .emit)

/-- A LIT or DYN code, by the micro-step that read it (R86, R88, R91, R92; log entry 11). -/
def resolveCode (r : Code) (s : State) : Result :=
  if readingCode s then
    (match s.dstate with
    | .first => resolveFirst r s
    | .next => resolveNext r s
    | .emit => .fault .noCodeExpected)
  else .fault .noCodeExpected

/-- SENT: the end of the segment, wherever a code is read (R90). -/
def execSent (s : State) : Result :=
  if readingCode s then .next (segEnd s) else .fault .noCodeExpected

/-- LIT d: the one-byte string [d] (R91). -/
def execLit (d : Byte) (s : State) : Result := resolveCode (litOperand d) s

/-- DYN c: an entry, the KwKwK case or a miss, by position (R92). -/
def execDyn (c : Code) (s : State) : Result := resolveCode c s

end Sys2Proof.Machine
end

