-- ==== Sys2Proof/Machine/Encoder.lean ====
section
/-! DEFINITION. The encoder commands C_FBEGIN, C_DATA and C_FEND (42_encoder.md R79 to R84). -/

namespace Sys2Proof.Machine

/-- The rule of C_FBEGIN (R79). -/
def beginSegment (s : State) : Result :=
  if s.nfiles.toNat ≤ s.fidx.toNat then .next (countError 0x5 s)
  else .next { dictReset s with sbuf := [], mode := .cfile }

/-- C_FBEGIN: start the next file's segment (R79). -/
def execCFbegin (s : State) : Result := command 0x5 0 beginSegment s

/-- The mismatch branch of C_DATA: emit code(S) in the old epoch, allocate (resetting first if the epoch
is full), insert S ++ C formed from the S held before the reset, and set S to C (R80, R123). -/
def emitAndInsert (c : Bytes) (s : State) : Result :=
  match dictElookup s.sbuf s with
  | none => .fault .matchAbsent
  | some k =>
    let a := dictAlloc (bcWrite k s)
    match dictEinsert (s.sbuf ++ c) a.1 a.2 with
    | none => .fault .insertPrecondition
    | some t => .next { t with sbuf := c }

/-- The rule of C_DATA b (R80). -/
def encodeByte (b : Byte) (s : State) : Result :=
  let c := immString b
  if s.sbuf = [] then .next { s with sbuf := c }
  else
    match dictElookup (s.sbuf ++ c) s with
    | some _ => .next { s with sbuf := s.sbuf ++ c }
    | none => emitAndInsert c s

/-- C_DATA b: feed one input byte to the encoder (R80). -/
def execCData (b : Byte) (s : State) : Result := command 0x6 b (encodeByte b) s

/-- The sentinel and the end of the segment (R81). -/
def closeSegment (s : State) : State :=
  let t := bcWrite (BitVec.ofNat 12 Config.sentinel) s
  { t with sbuf := [], fidx := t.fidx + 1, mode := .cbody }

/-- The rule of C_FEND (R81). -/
def endSegment (s : State) : Result :=
  if s.sbuf = [] then .next (closeSegment s)
  else
    match dictElookup s.sbuf s with
    | none => .fault .matchAbsent
    | some k => .next (closeSegment (bcWrite k s))

/-- C_FEND: end of the file's input (R81). -/
def execCFend (s : State) : Result := command 0x7 0 endSegment s

end Sys2Proof.Machine
end

