-- ==== Sys2Proof/Machine/Framer.lean ====
section
/-! DEFINITION. The archive framing controller: the header and finish commands of both paths, ABORT, and
the illegal words (44_framer.md R98 to R108, 60_exceptions.md R110). -/

namespace Sys2Proof.Machine

/-- The line feed 0x0A, which ends a name line and is the blank line (R54). -/
abbrev lineFeed : Byte := 0x0A#8

/-- NFILES = 2^CNT_W - 1: one more name would overflow (R15, R100, R105). -/
def countFull (s : State) : Bool := decide (s.nfiles.toNat = 2 ^ Config.countWidth - 1)

/-! ## Compress path -/

/-- The rule of C_START (R98). -/
def openCompress (s : State) : Result :=
  .next { dictReset (bcWclr s) with
    nfiles := 0#32, fidx := 0#32, nameOpen := false, tailDrop := false, truncSent := false
    sbuf := [], mode := .chdr }

/-- C_START: open a compress operation (R98). -/
def execCStart (s : State) : Result := command 0x1 0 openCompress s

/-- The rule of C_NAMEB b (R99). -/
def nameByte (b : Byte) (s : State) : Result :=
  if b = lineFeed then .next (raise .badNameByte (cmdWord 0x2 b) FInfo.zero s)
  else .next { aoutPut [b] s with nameOpen := true }

/-- C_NAMEB b: write one byte of the current file name (R99). -/
def execCNameb (b : Byte) (s : State) : Result := command 0x2 b (nameByte b) s

/-- The rule of C_NAMEEND (R100). -/
def nameEnd (s : State) : Result :=
  if s.nameOpen = false then .next (raise .emptyName (cmdWord 0x3 0) FInfo.zero s)
  else if countFull s then .next (countError 0x3 s)
  else .next { aoutPut [lineFeed] s with nfiles := s.nfiles + 1, nameOpen := false }

/-- C_NAMEEND: end the current name line (R100). -/
def execCNameend (s : State) : Result := command 0x3 0 nameEnd s

/-- The rule of C_HDREND (R101). -/
def headerEnd (s : State) : Result :=
  if s.nameOpen then .next (raise .seqError (cmdWord 0x4 0) FInfo.zero s)
  else if s.nfiles = 0#32 then .next (countError 0x4 s)
  else .next { aoutPut [lineFeed] s with fidx := 0#32, mode := .cbody }

/-- C_HDREND: write the blank line that ends the header (R101). -/
def execCHdrend (s : State) : Result := command 0x4 0 headerEnd s

/-- The rule of C_FINISH (R102). -/
def closeCompress (s : State) : Result :=
  if s.fidx ≠ s.nfiles then .next (countError 0x8 s)
  else .next { s with tailDrop := tailDropOf s, mode := .idle }

/-- C_FINISH: close the compress operation (R102). -/
def execCFinish (s : State) : Result := command 0x8 0 closeCompress s

/-! ## Decompress path -/

/-- The rule of D_START (R104). -/
def openDecompress (s : State) : Result :=
  .next { dictReset (bcRclr s) with
    nfiles := 0#32, fidx := 0#32, lineOpen := false, tailDrop := false, truncSent := false
    curCode := 0#12, curStr := [], dstate := .first, mode := .dhdr }

/-- D_START: open a decompress operation (R104). -/
def execDStart (s : State) : Result := command 0x9 0 openDecompress s

/-- The acceptance step of D_NAME (R105). -/
def acceptName (s : State) : Result := .next { s with busy := true }

/-- D_NAME: read one header line; this is its acceptance, and the micro-steps DN_STEP follow (R105). -/
def execDName (s : State) : Result := command 0xA 0 acceptName s

/-- Micro-step DN_STEP: one header byte (R105). -/
def dnStep (s : State) : State :=
  match ainGet s with
  | (none, t) => raise .hdrTruncated (cmdWord 0xA 0) FInfo.zero t
  | (some b, t) =>
    if b ≠ lineFeed then { doutPut [⟨.nameb, b⟩] t with lineOpen := true }
    else if t.lineOpen then
      if countFull t then countError 0xA t
      else
        { doutPut [⟨.nameEnd, 0⟩] t with nfiles := t.nfiles + 1, lineOpen := false, busy := false }
    else if t.nfiles = 0#32 then countError 0xA t
    else { doutPut [⟨.hdrEnd, 0⟩] t with fidx := 0#32, busy := false, mode := .dbody }

/-- The rule of D_FINISH (R106). -/
def closeDecompress (s : State) : Result :=
  if s.fidx ≠ s.nfiles then .next (countError 0xC s)
  else .next { s with mode := .idle }

/-- D_FINISH: close the decompress operation (R106). -/
def execDFinish (s : State) : Result := command 0xC 0 closeDecompress s

/-! ## ABORT and the illegal words -/

/-- ABORT: legal in every mode and the only word accepted in FAULT (R96, R108, R116). -/
def execAbort (s : State) : Result :=
  if s.busy then .refused .commandWhileBusy else .next (resetRegisters s)

/-- A word with the reserved opcode 0x0 (R110). -/
def execIllegalOp0 (rest : BitVec 28) (s : State) : Result := illegalWord (rawWord 0x0 rest) s

/-- A word with the reserved opcode 0xE (R110). -/
def execIllegalOpE (rest : BitVec 28) (s : State) : Result := illegalWord (rawWord 0xE rest) s

/-- A word with the reserved opcode 0xF (R110). -/
def execIllegalOpF (rest : BitVec 28) (s : State) : Result := illegalWord (rawWord 0xF rest) s

end Sys2Proof.Machine
end

