-- ==== Sys2Proof/Machine/Dispatch.lean ====
section
/-! DEFINITION. The meaning of every instruction: one arm per row of spec/opcode_table.json. -/

namespace Sys2Proof.Machine

def exec (i : Instr) (s : State) : Host.Outcome State Fault Refusal :=
  match i with
  | .cStart => Sys2Proof.Machine.execCStart s
  | .cNameb b => Sys2Proof.Machine.execCNameb b s
  | .cNameend => Sys2Proof.Machine.execCNameend s
  | .cHdrend => Sys2Proof.Machine.execCHdrend s
  | .cFbegin => Sys2Proof.Machine.execCFbegin s
  | .cData b => Sys2Proof.Machine.execCData b s
  | .cFend => Sys2Proof.Machine.execCFend s
  | .cFinish => Sys2Proof.Machine.execCFinish s
  | .dStart => Sys2Proof.Machine.execDStart s
  | .dName => Sys2Proof.Machine.execDName s
  | .dFile => Sys2Proof.Machine.execDFile s
  | .dFinish => Sys2Proof.Machine.execDFinish s
  | .abort => Sys2Proof.Machine.execAbort s
  | .illegalOp0 rest => Sys2Proof.Machine.execIllegalOp0 rest s
  | .illegalOpE rest => Sys2Proof.Machine.execIllegalOpE rest s
  | .illegalOpF rest => Sys2Proof.Machine.execIllegalOpF rest s
  | .bcWrite code => Sys2Proof.Machine.execBcWrite code s
  | .bcRead => Sys2Proof.Machine.execBcRead s
  | .bcWclr => Sys2Proof.Machine.execBcWclr s
  | .bcRclr => Sys2Proof.Machine.execBcRclr s
  | .dictReset => Sys2Proof.Machine.execDictReset s
  | .dictAlloc => Sys2Proof.Machine.execDictAlloc s
  | .dictElookup => Sys2Proof.Machine.execDictElookup s
  | .dictEinsert code => Sys2Proof.Machine.execDictEinsert code s
  | .dictDlookup code => Sys2Proof.Machine.execDictDlookup code s
  | .dictDinsert code => Sys2Proof.Machine.execDictDinsert code s
  | .uopReserved sel code => Sys2Proof.Machine.execUopReserved sel code s
  | .sent => Sys2Proof.Machine.execSent s
  | .lit d => Sys2Proof.Machine.execLit d s
  | .dyn c => Sys2Proof.Machine.execDyn c s

end Sys2Proof.Machine
end

