-- ==== Sys2Proof/Machine/Fetch.lean ====
section
/-! DEFINITION. Where the core's next move comes from: the internal micro-operation port, the running
command's micro-steps, or the command port; and how a word is placed there. -/

namespace Sys2Proof.Machine

/-- The next move: an instruction to run in a state, or a move that runs none. -/
inductive Fetched where
  | run (i : Instr) (s : State)
  | done (o : Result)
  deriving Repr

/-- A micro-step that reads a code (DS_FIRST, DS_NEXT): BC_READ, then the code's class runs, or EXHAUST
(R86, R88, R93). -/
def fetchCode (s : State) : Fetched :=
  match bcRead s with
  | (some c, t) => .run (decodeCode c) t
  | (none, t) => .done (.next (exhaust t))

/-- The micro-step of the running command (R85, R96, R105). BUSY = 1 in any other mode is a state no run
reaches (R14). -/
def fetchMicro (s : State) : Fetched :=
  match s.mode with
  | .dhdr => .done (.next (dnStep s))
  | .dfile =>
    match s.dstate with
    | .emit => .done (.next (dsEmit s))
    | .first => fetchCode s
    | .next => fetchCode s
  | .idle => .done (.fault .busyWithoutCommand)
  | .chdr => .done (.fault .busyWithoutCommand)
  | .cbody => .done (.fault .busyWithoutCommand)
  | .cfile => .done (.fault .busyWithoutCommand)
  | .dbody => .done (.fault .busyWithoutCommand)
  | .fault => .done (.fault .busyWithoutCommand)

/-- The next word of the command port (R96). A word that is no row of the opcode map is illegal (R59). An
idle core with no word waits in its mode (R120). -/
def fetchCommand (s : State) : Fetched :=
  match s.cmdq with
  | [] => .done (.next s)
  | w :: rest =>
    match decodeCmd w with
    | .ok i => .run i { s with cmdq := rest }
    | .reject _ => .done (illegalWord w { s with cmdq := rest })

/-- The core's next move (R96, R61): a waiting selector word first (log entry 3), then the micro-steps of
a running command, then the command port. -/
def fetch (s : State) : Fetched :=
  match s.uopPort with
  | some w => .run (decodeUop w) { s with uopPort := none }
  | none => if s.busy then fetchMicro s else fetchCommand s

/-- Place a command word at the head of the command port of a core that is not busy. -/
def placeCommand (w : Word) (s : State) : State :=
  { s with uopPort := none, busy := false, cmdq := w :: s.cmdq }

/-- Place a selector word on the internal port. -/
def placeUop (w : UopWord) (s : State) : State := { s with uopPort := some w }

/-- Place a code where a running D_FILE reads its next one: its top four bits in the read BitBuffer, its
low byte next on AIN. -/
def placeCode (c : Code) (s : State) : State :=
  { s with
    uopPort := none, busy := true, mode := .dfile
    dstate := if s.dstate = .emit then .first else s.dstate
    rbits := BitVec.ofNat 12 (field c.toNat 11 8), rcnt := 4#4
    ain := BitVec.ofNat 8 (field c.toNat 7 0) :: s.ain }

/-- Place a word of a known format. -/
def placeWord (e : Encoded) (s : State) : State :=
  match e with
  | .cmd w => placeCommand w s
  | .uop w => placeUop w s
  | .code c => placeCode c s

end Sys2Proof.Machine
end

