-- ==== Sys2Proof/Machine/Step.lean ====
section
/-! DEFINITION. One step of the core, and the placing of a table word where the step fetches it. -/

namespace Sys2Proof.Machine

/-- One move of the core (R5, R11, R96). -/
def step (s : State) : Host.Outcome State Fault Refusal :=
  match fetch s with
  | .run i t => exec i t
  | .done o => o

/-- The state with a table word placed where the very next step runs it (log entries 2 and 12). -/
def State.withFetchWord (s : State) (nbits w : Nat) : State :=
  match tableWord nbits w with
  | some e => placeWord e s
  | none => s

end Sys2Proof.Machine
end

