-- ==== Sys2Proof/Machine/Assembler.lean ====
section
/-! DEFINITION. The assembler lines of 30_encoding.md R62 and the pseudo-instructions of R63. Lines are
lists of characters. -/

namespace Sys2Proof.Machine

/-- The words of a program of commands; an instruction of another format has no command word. -/
def programWords (is : List Instr) : List Word :=
  is.filterMap fun i =>
    match encode i with
    | .cmd w => some w
    | .uop _ => none
    | .code _ => none

/-- The pseudo-instructions (R63). -/
inductive Pseudo where
  /-- NAME "s". -/
  | name (s : Bytes)
  /-- FILE "d". -/
  | file (d : Bytes)
  /-- COMPRESS (n_1, d_1), ..., (n_k, d_k). -/
  | compress (files : List (Bytes × Bytes))
  /-- DECOMPRESS k. -/
  | decompress (k : Nat)
  deriving DecidableEq, Repr

/-- The expansion of NAME (R63). -/
def expandName (s : Bytes) : List Instr := s.map .cNameb ++ [.cNameend]

/-- The expansion of FILE (R63). -/
def expandFile (d : Bytes) : List Instr := [.cFbegin] ++ d.map .cData ++ [.cFend]

/-- The expansions of R63. -/
def expandPseudo : Pseudo → List Instr
  | .name s => expandName s
  | .file d => expandFile d
  | .compress fs =>
    [.cStart] ++ fs.flatMap (fun f => expandName f.1) ++ [.cHdrend] ++
      fs.flatMap (fun f => expandFile f.2) ++ [.cFinish]
  | .decompress k =>
    [.dStart] ++ List.replicate (k + 1) .dName ++ List.replicate k .dFile ++ [.dFinish]

/-- The operand conditions of R63: a name has a byte; COMPRESS has a file, and its names have bytes. -/
def Pseudo.wf : Pseudo → Bool
  | .name s => !s.isEmpty
  | .file _ => true
  | .compress fs => !fs.isEmpty && fs.all fun f => !f.1.isEmpty
  | .decompress k => decide (1 ≤ k)

/-- What a line of source says (R62). -/
inductive AsmLine where
  /-- An empty line, or only a comment. -/
  | blank
  | instr (i : Instr)
  | bad
  deriving DecidableEq, Repr

/-- White space between the parts of a line (log entry 19). -/
def isBlank (c : Char) : Bool := c = ' ' || c = '\t' || c = '\r'

def skipBlanks (cs : List Char) : List Char := cs.dropWhile isBlank

/-- Whether nothing but a comment is left: a comment starts with ';' (R62). -/
def atEnd (cs : List Char) : Bool :=
  match skipBlanks cs with
  | [] => true
  | c :: _ => c = ';'

def digitValue (base : Nat) (c : Char) : Option Nat :=
  let n := c.toNat
  let v :=
    if 48 ≤ n ∧ n ≤ 57 then n - 48
    else if 65 ≤ n ∧ n ≤ 70 then n - 55
    else if 97 ≤ n ∧ n ≤ 102 then n - 87
    else 16
  if v < base then some v else none

/-- A run of digits: the value so far, whether there was a digit, and the rest. -/
def readDigits (base acc : Nat) (seen : Bool) : List Char → Nat × Bool × List Char
  | [] => (acc, seen, [])
  | c :: cs =>
    match digitValue base c with
    | some v => readDigits base (acc * base + v) true cs
    | none => (acc, seen, c :: cs)

def digitsByte (base : Nat) (cs : List Char) : Option (Byte × List Char) :=
  match readDigits base 0 false cs with
  | (v, seen, rest) => if seen && decide (v < 256) then some (BitVec.ofNat 8 v, rest) else none

/-- `imm`: a byte written 0x.., in decimal, or as a character in single quotes (R62; log entry 19). -/
def readImm : List Char → Option (Byte × List Char)
  | '\'' :: c :: '\'' :: rest => if c.toNat < 128 then some (BitVec.ofNat 8 c.toNat, rest) else none
  | '0' :: 'x' :: rest => digitsByte 16 rest
  | cs => digitsByte 10 cs

/-- The mnemonics without an operand (R58, R62). -/
def plainMnemonics : List (List Char × Instr) :=
  [ (['C','_','S','T','A','R','T'], .cStart),
    (['C','_','N','A','M','E','E','N','D'], .cNameend),
    (['C','_','H','D','R','E','N','D'], .cHdrend),
    (['C','_','F','B','E','G','I','N'], .cFbegin),
    (['C','_','F','E','N','D'], .cFend),
    (['C','_','F','I','N','I','S','H'], .cFinish),
    (['D','_','S','T','A','R','T'], .dStart),
    (['D','_','N','A','M','E'], .dName),
    (['D','_','F','I','L','E'], .dFile),
    (['D','_','F','I','N','I','S','H'], .dFinish),
    (['A','B','O','R','T'], .abort) ]

/-- C_NAMEB and C_DATA require `imm` (R62). -/
def byteMnemonic (m : List Char) (b : Byte) : Option Instr :=
  if m = ['C','_','N','A','M','E','B'] then some (.cNameb b)
  else if m = ['C','_','D','A','T','A'] then some (.cData b)
  else none

def isMnemonicChar (c : Char) : Bool := (decide ('A' ≤ c) && decide (c ≤ 'Z')) || c = '_'

/-- One line: MNEMONIC or MNEMONIC imm, with an optional comment (R62). -/
def parseLine (line : List Char) : AsmLine :=
  let cs := skipBlanks line
  if atEnd cs then .blank
  else
    let m := cs.takeWhile isMnemonicChar
    let rest := cs.dropWhile isMnemonicChar
    if atEnd rest then
      match plainMnemonics.lookup m with
      | some i => .instr i
      | none => .bad
    else if skipBlanks rest = rest then .bad
    else
      match readImm (skipBlanks rest) with
      | none => .bad
      | some (b, after) =>
        match byteMnemonic m b with
        | some i => if atEnd after then .instr i else .bad
        | none => .bad

/-- Each line mapped to its word by R58 with IMM8 = imm (R62); `none` where a line is bad. -/
def assemble : List (List Char) → Option (List Word)
  | [] => some []
  | l :: ls =>
    match parseLine l, assemble ls with
    | .blank, some ws => some ws
    | .instr i, some ws => some (programWords [i] ++ ws)
    | _, _ => none

end Sys2Proof.Machine
end

