-- ==== Sys2Proof/Machine/Format.lean ====
section
/-! DEFINITION. The archive format (30_encoding.md R52 to R54) as functions: the bits of a code, packing
into bytes, the header, and the whole archive. -/

namespace Sys2Proof.Machine

/-- The n low bits of v, most significant bit first (R41). -/
def msbBits (n v : Nat) : List Bool := (List.range n).map fun i => v.testBit (n - 1 - i)

/-- The 12 bits of a code, MSB first (R41, R52). -/
def codeBits (c : Code) : List Bool := msbBits Config.codeWidth c.toNat

/-- The 8 bits of a byte, MSB first (R52). -/
def byteBits (b : Byte) : List Bool := msbBits 8 b.toNat

/-- The number whose bits these are, MSB first. -/
def ofMsbBits (bs : List Bool) : Nat := bs.foldl (fun v b => 2 * v + b.toNat) 0

/-- Cut bits into whole bytes from the left; a residue of fewer than 8 bits is dropped (R52, R53). -/
def packBits : List Bool → Bytes
  | b7 :: b6 :: b5 :: b4 :: b3 :: b2 :: b1 :: b0 :: rest =>
    BitVec.ofNat 8 (ofMsbBits [b7, b6, b5, b4, b3, b2, b1, b0]) :: packBits rest
  | _ => []

/-- The body bytes of a code sequence, from an empty BitBuffer (R52, R53). -/
def packCodes (cs : List Code) : Bytes := packBits (cs.flatMap codeBits)

/-- A name the header can hold: one or more bytes, none of them 0x0A (R54). -/
def validName (n : Bytes) : Bool := !n.isEmpty && !n.contains lineFeed

/-- The header: one line per name, then the blank line (R54). -/
def headerBytes (names : List Bytes) : Bytes :=
  names.flatMap (fun n => n ++ [lineFeed]) ++ [lineFeed]

/-- A segment: the file's codes, then the sentinel (R54). -/
def segmentCodes (cs : List Code) : List Code := cs ++ [BitVec.ofNat 12 Config.sentinel]

/-- The archive of names and of the codes of each file (R54). -/
def archiveBytes (names : List Bytes) (files : List (List Code)) : Bytes :=
  headerBytes names ++ packCodes (files.flatMap segmentCodes)

/-- The DOUT events of one name line (R105, R107). -/
def nameEvents (n : Bytes) : List DEvent := n.map (fun b => ⟨.nameb, b⟩) ++ [⟨.nameEnd, 0⟩]

/-- The DOUT events of one file's contents (R87, R89, R107). -/
def fileEvents (d : Bytes) : List DEvent := d.map (fun b => ⟨.data, b⟩) ++ [⟨.fileEnd, 0⟩]

end Sys2Proof.Machine
end

