-- ==== Sys2Proof/Machine/ReadWindow.lean ====
section
/-! DEFINITION. The register read window (10_state.md R27): ten read-only registers behind a 4-bit
address, without side effects. -/

namespace Sys2Proof.Machine

/-- A flag as one bit. -/
def flagBit (b : Bool) : BitVec 1 := BitVec.ofBool b

/-- S_CODE: the code of S in the current epoch, 0 when S is empty (R27); where S has no code, which R82
excludes, the spec states no value and the field is free (log entry 13). -/
def sCode (s : State) : Code :=
  if s.sbuf = [] then 0#12
  else
    match dictElookup s.sbuf s with
    | some c => c
    | none => Config.sCodeUnstated s.sbuf

/-- STATUS, address 0x0 (R27). -/
def statusReg (s : State) : Word :=
  0#17 ++ s.dstate.bits ++ flagBit s.lineOpen ++ flagBit (sValid s) ++ flagBit s.nameOpen ++
    flagBit s.truncSent ++ flagBit s.tailDrop ++ s.fcode.bits ++ flagBit s.busy ++ s.mode.bits

/-- DICT, address 0x3 (R27). -/
def dictReg (s : State) : Word := 0#20 ++ s.nextCode

/-- WBUF, address 0x4: [6:0] WBITS, [10:8] WCNT (R27). -/
def wbufReg (s : State) : Word := 0#21 ++ s.wcnt ++ 0#1 ++ s.wbits

/-- RBUF, address 0x5: [11:0] RBITS, [15:12] RCNT (R27). -/
def rbufReg (s : State) : Word := 0#16 ++ s.rcnt ++ s.rbits

/-- ENCS, address 0x6: [11:0] S_CODE, [23:12] |S| (R27). -/
def encsReg (s : State) : Word := 0#8 ++ BitVec.ofNat 12 s.sbuf.length ++ sCode s

/-- DECCUR, address 0x7: [11:0] CUR_CODE, [23:12] |CUR_STR| (R27). -/
def deccurReg (s : State) : Word := 0#8 ++ BitVec.ofNat 12 s.curStr.length ++ s.curCode

/-- FINFO, address 0x9: [11:0] FVAL, [15:12] FRCNT, [16] FVAL_VALID, [17] FRCNT_VALID (R27). -/
def finfoReg (s : State) : Word :=
  0#14 ++ flagBit s.finfo.frcntValid ++ flagBit s.finfo.fvalValid ++ s.finfo.frcnt ++ s.finfo.fval

/-- RegRead(a): the 32 bits at read address a; 0xA to 0xF read as 0 (R27). -/
def regRead (a : BitVec 4) (s : State) : Word :=
  match a.toNat with
  | 0x0 => statusReg s
  | 0x1 => s.nfiles
  | 0x2 => s.fidx
  | 0x3 => dictReg s
  | 0x4 => wbufReg s
  | 0x5 => rbufReg s
  | 0x6 => encsReg s
  | 0x7 => deccurReg s
  | 0x8 => s.fcmd
  | 0x9 => finfoReg s
  | _ => 0#32

end Sys2Proof.Machine
end

