-- ==== Sys2Proof/Machine/HostPorts.lean ====
section
/-! DEFINITION. The host's moves (20_memory.md R48): issuing a command word, supplying archive bytes, and
reading a register. `none` is "no move": the model has no step for it. AOUT and DOUT are read from the
state; the host never refuses a byte or an event (H2, H4). -/

namespace Sys2Proof.Machine

/-- H1: issue any 32-bit word, only while BUSY = 0. -/
def hostIssue (w : Word) (s : State) : Option State :=
  if s.busy then none else some { s with cmdq := s.cmdq ++ [w] }

/-- H3: supply archive input bytes. EMPTY is sticky within one operation, because no operation calls
AinGet again once it has seen EMPTY (log entry 15). -/
def hostSupply (bs : Bytes) (s : State) : State := { s with ain := s.ain ++ bs }

/-- H9: RegRead, only while BUSY = 0, without side effects (R27). -/
def hostRegRead (a : BitVec 4) (s : State) : Option Word :=
  if s.busy then none else some (regRead a s)

end Sys2Proof.Machine
end

