-- ==== Sys2Proof/Safety.lean ====
section
/-! DEFINITION. What counts as a safe run: an outcome that goes on, and the invariant of the states a run
of host commands reaches. -/

namespace Sys2Proof.Machine

/-- The machine goes on: neither a fault nor a refusal of the model. -/
def Continues (o : Host.Outcome State Fault Refusal) : Prop := ∃ t, o = .next t

/-- Between commands in mode m: BUSY = 0. -/
def Ready (m : Mode) (s : State) : Prop := s.busy = false ∧ s.mode = m

/-- While D_FILE runs, in the micro-state d. -/
def Decoding (d : DState) (s : State) : Prop := s.busy = true ∧ s.mode = .dfile ∧ s.dstate = d

/-- Instructions one after another, each by its meaning; `none` where one stops. -/
def runInstrs : List Instr → State → Option State
  | [], s => some s
  | i :: is, s =>
    match exec i s with
    | .next t => runInstrs is t
    | .fault _ => none
    | .refused _ => none

/-- The commands of the compress path. -/
def compressInstr : Instr → Bool
  | .cStart | .cNameb _ | .cNameend | .cHdrend | .cFbegin | .cData _ | .cFend | .cFinish => true
  | .dStart | .dName | .dFile | .dFinish | .abort | .illegalOp0 _ | .illegalOpE _ | .illegalOpF _
  | .bcWrite _ | .bcRead | .bcWclr | .bcRclr | .dictReset | .dictAlloc | .dictElookup
  | .dictEinsert _ | .dictDlookup _ | .dictDinsert _ | .uopReserved _ _ | .sent | .lit _
  | .dyn _ => false

/-- The internal micro-operations (format UOP, R61). -/
def microOperation : Instr → Bool
  | .bcWrite _ | .bcRead | .bcWclr | .bcRclr | .dictReset | .dictAlloc | .dictElookup
  | .dictEinsert _ | .dictDlookup _ | .dictDinsert _ | .uopReserved _ _ => true
  | .cStart | .cNameb _ | .cNameend | .cHdrend | .cFbegin | .cData _ | .cFend | .cFinish
  | .dStart | .dName | .dFile | .dFinish | .abort | .illegalOp0 _ | .illegalOpE _ | .illegalOpF _
  | .sent | .lit _ | .dyn _ => false

/-- Whether code c is a dynamic entry of the current epoch holding x (R29, R31). -/
def Holds (s : State) (c : Nat) (x : Bytes) : Prop :=
  Config.firstDyn ≤ c ∧ c < s.nextCode.toNat ∧ memRead c s.entry = x

/-- No two dynamic codes of the epoch hold the same string (R35). -/
def DistinctEntries (s : State) : Prop :=
  ∀ c d x, Holds s c x → Holds s d x → c = d

/-- The modes of a compress operation. -/
def Mode.compressing : Mode → Bool
  | .chdr | .cbody | .cfile => true
  | .idle | .dhdr | .dbody | .dfile | .fault => false

/-- The modes in which the header is complete and the body is being written or read. -/
def Mode.inBody : Mode → Bool
  | .cbody | .cfile | .dbody | .dfile => true
  | .idle | .chdr | .dhdr | .fault => false

/-- What every state of a run of host commands satisfies. The facts come from 10_state.md and from the
invariants of 41_dictionary.md, 42_encoder.md and 43_decoder.md. -/
structure Inv (s : State) : Prop where
  /-- The entry memory is in its canonical form. -/
  memWf : s.entry.wf = true
  /-- NEXT is in 256..4095 (R23). -/
  nextLow : Config.firstDyn ≤ s.nextCode.toNat
  /-- Every dynamic code of the epoch holds a string of 2 to MAX_ENTRY_LEN bytes (R24, R31). -/
  dense : ∀ c, Config.firstDyn ≤ c → c < s.nextCode.toNat →
    2 ≤ (memRead c s.entry).length ∧ (memRead c s.entry).length ≤ Config.maxEntryLen
  /-- WCNT is 0 or 4, and the bits of WBITS at or above WCNT are 0 (R21, R64). -/
  wbuf : (s.wcnt = 0#3 ∨ s.wcnt = 4#3) ∧ s.wbits.toNat < 2 ^ s.wcnt.toNat
  /-- The body starts byte-aligned (R101). -/
  wbufHeader : s.mode = .chdr → s.wcnt = 0#3
  /-- RCNT is 0, 4 or 8, and the bits of RBITS at or above RCNT are 0 (R22, R67). -/
  rbuf : (s.rcnt = 0#4 ∨ s.rcnt = 4#4 ∨ s.rcnt = 8#4) ∧ s.rbits.toNat < 2 ^ s.rcnt.toNat
  /-- FIDX never exceeds NFILES (R16). -/
  counts : s.fidx.toNat ≤ s.nfiles.toNat
  /-- Inside a segment there is a name for it (R79, R85). -/
  segmentNamed : s.mode = .cfile ∨ s.mode = .dfile → s.fidx.toNat < s.nfiles.toNat
  /-- An archive holds one or more files (R101, R105). -/
  bodyNamed : s.mode.inBody = true → s.nfiles ≠ 0#32
  /-- BUSY is 1 only while D_NAME or D_FILE runs (R14). -/
  busyMode : s.busy = true → s.mode = .dhdr ∨ s.mode = .dfile
  /-- DFILE only while BUSY = 1 (R13). -/
  dfileBusy : s.mode = .dfile → s.busy = true
  /-- Outside a file segment S is empty; a fault inside one keeps it (R25, R113). -/
  matchMode : s.sbuf ≠ [] → s.mode = .cfile ∨ s.mode = .fault
  /-- S and each prefix of S of two or more bytes is a dynamic entry of the epoch (R82, R83). -/
  matchPrefixes : ∀ k, 2 ≤ k → k ≤ s.sbuf.length → ∃ c, Holds s c (s.sbuf.take k)
  /-- CUR_STR has at most MAX_ENTRY_LEN bytes (R26). -/
  curLength : s.curStr.length ≤ Config.maxEntryLen
  /-- After DS_FIRST the decoder has a current string (R26, R86). -/
  curPresent : s.mode = .dfile → s.dstate ≠ .first → s.curStr ≠ []
  /-- In DS_FIRST the epoch is empty (R86). -/
  firstEmpty : s.mode = .dfile → s.dstate = .first → s.nextCode.toNat = Config.firstDyn
  /-- FAULT is the mode in which a fault is recorded (R20, R113). -/
  faultMode : s.mode = .fault ↔ s.fcode ≠ .none
  /-- Without a fault FCMD and FINFO are 0 (R20). -/
  faultClear : s.fcode = .none → s.fcmd = 0#32 ∧ s.finfo = FInfo.zero
  /-- NAME_OPEN only inside a compress header, or after a fault there (R17). -/
  nameOpenMode : s.nameOpen = true → s.mode = .chdr ∨ s.mode = .fault
  /-- LINE_OPEN only while D_NAME runs, or after a fault there (R18). -/
  lineOpenMode : s.lineOpen = true → (s.mode = .dhdr ∧ s.busy = true) ∨ s.mode = .fault
  /-- The host cannot issue micro-operations (R61). -/
  noUop : s.uopPort = none

/-- In a compress operation no two present codes hold the same string (R35). -/
def InvDistinct (s : State) : Prop := s.mode.compressing = true → DistinctEntries s

end Sys2Proof.Machine
end

