-- ==== Sys2Proof/Certificates/Slice0/Obligations.lean ====
section
/-! DEFINITION. The statements for the provers. The definitions under Sys2Proof.Claims restate the rules
they cite, so that a statement does not lean on the model's own words for them. -/

namespace Sys2Proof.Claims

open Sys2Proof.Machine

/-- R113, in full: what `raise F(info)` does in the command with word w, and that it writes nothing else. -/
def faulted (f : FCode) (w : Word) (info : FInfo) (s : State) : State :=
  { s with fcode := f, fcmd := w, finfo := info, busy := false, mode := .fault }

/-- FINFO = 0 (R20). -/
def noInfo : FInfo := ⟨0#12, 0#4, false, false⟩

/-- R89, in full: what SEG_END() does. -/
def segmentEnded (s : State) : State :=
  { s with
    dout := s.dout ++ [⟨.fileEnd, 0#8⟩], fidx := s.fidx + 1, dstate := .first, busy := false
    mode := .dbody }

/-- R93, in full: what EXHAUST() does: the last segment with RCNT = 8 and RBITS = 0xFF is accepted as its
sentinel, anything else raises STREAM_EXHAUSTED. -/
def exhausted (s : State) : State :=
  if s.fidx.toNat + 1 = s.nfiles.toNat ∧ s.rcnt = 8#4 ∧ s.rbits = 0xFF#12 then
    segmentEnded { s with truncSent := true }
  else faulted .streamExhausted 0xB0000000#32 ⟨0#12, s.rcnt, false, true⟩ s

/-- R59: the word is illegal. -/
def IllegalWord (w : Word) : Prop :=
  (w.extractLsb' 28 4 = 0x0#4 ∨ w.extractLsb' 28 4 = 0xE#4 ∨ w.extractLsb' 28 4 = 0xF#4) ∨
    w.extractLsb' 8 20 ≠ 0#20 ∨
    (w.extractLsb' 0 8 ≠ 0#8 ∧ w.extractLsb' 28 4 ≠ 0x2#4 ∧ w.extractLsb' 28 4 ≠ 0x6#4)

/-- R58: match, mask and mnemonic of the legal commands. -/
def commandRows : List (Word × Word × (Byte → Instr)) :=
  [ (0x10000000#32, 0xFFFFFFFF#32, fun _ => .cStart),
    (0x20000000#32, 0xFFFFFF00#32, .cNameb),
    (0x30000000#32, 0xFFFFFFFF#32, fun _ => .cNameend),
    (0x40000000#32, 0xFFFFFFFF#32, fun _ => .cHdrend),
    (0x50000000#32, 0xFFFFFFFF#32, fun _ => .cFbegin),
    (0x60000000#32, 0xFFFFFF00#32, .cData),
    (0x70000000#32, 0xFFFFFFFF#32, fun _ => .cFend),
    (0x80000000#32, 0xFFFFFFFF#32, fun _ => .cFinish),
    (0x90000000#32, 0xFFFFFFFF#32, fun _ => .dStart),
    (0xA0000000#32, 0xFFFFFFFF#32, fun _ => .dName),
    (0xB0000000#32, 0xFFFFFFFF#32, fun _ => .dFile),
    (0xC0000000#32, 0xFFFFFFFF#32, fun _ => .dFinish),
    (0xD0000000#32, 0xFFFFFFFF#32, fun _ => .abort) ]

/-- R97: the opcodes legal in each mode; ABORT in every mode (R58, R108). -/
def LegalOpcode (m : Mode) (op : BitVec 4) : Prop :=
  op = 0xD#4 ∨
    match m with
    | .idle => op = 0x1#4 ∨ op = 0x9#4
    | .chdr => op = 0x2#4 ∨ op = 0x3#4 ∨ op = 0x4#4
    | .cbody => op = 0x5#4 ∨ op = 0x8#4
    | .cfile => op = 0x6#4 ∨ op = 0x7#4
    | .dhdr => op = 0xA#4
    | .dbody => op = 0xB#4 ∨ op = 0xC#4
    | .dfile => False
    | .fault => False

/-- The encoding and legality lines of a command's rule: the word w is the instruction i, both ways, and in any
mode but m (and FAULT, R96) i raises SEQ_ERROR with FCMD = w (R97). -/
def CommandHead (w : Word) (i : Instr) (m : Mode) : Prop :=
  decodeCmd w = .ok i ∧ encode i = .cmd w ∧
    ∀ s : State, s.busy = false → s.mode ≠ .fault → s.mode ≠ m →
      exec i s = .next (faulted .seqError w noInfo s)

/-- R121: every register of 10_state.md but ENTRY holds its reset value. -/
def ResetValues (s : State) : Prop :=
  s.mode = .idle ∧ s.busy = false ∧ s.nfiles = 0#32 ∧ s.fidx = 0#32 ∧ s.nameOpen = false ∧
    s.lineOpen = false ∧ s.tailDrop = false ∧ s.truncSent = false ∧ s.fcode = .none ∧ s.fcmd = 0#32 ∧
    s.finfo = noInfo ∧ s.wbits = 0#7 ∧ s.wcnt = 0#3 ∧ s.rbits = 0#12 ∧ s.rcnt = 0#4 ∧
    s.nextCode = 256#12 ∧ s.sbuf = [] ∧ s.curCode = 0#12 ∧ s.curStr = [] ∧ s.dstate = .first

/-- R29: D(c), the string of code c in the current epoch. -/
def stringOf (c : Nat) (s : State) : Option Bytes :=
  if c < 256 then some [BitVec.ofNat 8 c]
  else if c < s.nextCode.toNat then some (memRead c s.entry)
  else none

/-- R74: the code DICT_ALLOC returns, which is also NEXT after it. -/
def allocated (s : State) : Code := if s.nextCode = 4095#12 then 256#12 else s.nextCode

/-- R76, R78: MemWrite(c, |x|, x) and NEXT <- c + 1. -/
def withEntry (c : Code) (x : Bytes) (s : State) : State :=
  { s with entry := memWrite c.toNat x s.entry, nextCode := c + 1#12 }

/-- The read BitBuffer and the archive bytes behind it as one bit stream, MSB first (R41, R67). -/
def inputBits (s : State) : List Bool := msbBits s.rcnt.toNat s.rbits.toNat ++ s.ain.flatMap byteBits

/-- DS_NEXT with a code r that is not the sentinel, after BC_READ left the state t (R88, R92). -/
def NextCodeOutcome (r : Code) (t : State) (o : Host.Outcome State Fault Refusal) : Prop :=
  let n := allocated t
  let u := { t with nextCode := n }
  (n.toNat < r.toNat → o = .next (faulted .decodeMiss 0xB0000000#32 ⟨r, 0#4, true, false⟩ u)) ∧
  (r.toNat ≤ n.toNat → 3841 < t.curStr.length + 1 →
    o = .next (faulted .entryTooLong 0xB0000000#32 ⟨r, 0#4, true, false⟩ u)) ∧
  (∀ fc y, r.toNat ≤ n.toNat → t.curStr.length + 1 ≤ 3841 →
    (if r.toNat < n.toNat then (stringOf r.toNat u).bind List.head? else t.curStr.head?) = some fc →
    stringOf r.toNat (withEntry n (t.curStr ++ [fc]) u) = some y →
    o = .next { withEntry n (t.curStr ++ [fc]) u with curCode := r, curStr := y, dstate := .emit })

/-- The three fault registers agree (R20). -/
def SameFault (s t : State) : Prop := s.fcode = t.fcode ∧ s.fcmd = t.fcmd ∧ s.finfo = t.finfo

/-- n reads by BC_READ, one after another: their results and the state after them (R69). -/
def readCodes : Nat → State → List (Option Code) × State
  | 0, s => ([], s)
  | n + 1, s =>
    let q := readCodes n (bcRead s).2
    ((bcRead s).1 :: q.1, q.2)

/-- BC_WRITE of each code in order (R64). -/
def writeCodes (cs : List Code) (s : State) : State := cs.foldl (fun t c => bcWrite c t) s

end Sys2Proof.Claims

open Sys2Proof Sys2Proof.Machine Sys2Proof.Claims

/-! ## Encodings and the step -/

/-- What a step does with the next word of the command port, from R96 over R59, R97 and R110; and while BUSY = 1
no word leaves the port. Two points are the model's and not the spec's: the port is a list of words (log entry 1,
DESIGN CHOICE), and a word refused in FAULT is taken off it (log entry 9, DEDUCED). -/
def Obligations.StepDispatchesEveryWord : Prop :=
  (∀ s t : State, s.uopPort = none → s.busy = true → step s = .next t → t.cmdq = s.cmdq) ∧
  ∀ (s : State) (w : Word) (rest : List Word),
    s.uopPort = none → s.busy = false → s.cmdq = w :: rest →
    (s.mode = .fault → w = 0xD0000000#32 → step s = exec .abort { s with cmdq := rest }) ∧
    (s.mode = .fault → w ≠ 0xD0000000#32 → step s = .next { s with cmdq := rest }) ∧
    (s.mode ≠ .fault → IllegalWord w →
      step s = .next (faulted .illegalCmd w noInfo { s with cmdq := rest })) ∧
    (s.mode ≠ .fault → ¬ IllegalWord w → ¬ LegalOpcode s.mode (w.extractLsb' 28 4) →
      step s = .next (faulted .seqError w noInfo { s with cmdq := rest })) ∧
    (s.mode ≠ .fault → ¬ IllegalWord w → LegalOpcode s.mode (w.extractLsb' 28 4) →
      ∃ i, decodeCmd w = .ok i ∧ encode i = .cmd w ∧ step s = exec i { s with cmdq := rest })

/-- A step runs the decoded instruction, in each of the three places an instruction is fetched from; and
an idle core with nothing to run waits. The order of the three is the model's (log entries 1, 3, 11). -/
def Obligations.StepRunsDecodedInstruction : Prop :=
  (∀ (s : State) (w : UopWord), s.uopPort = some w →
    step s = exec (decodeUop w) { s with uopPort := none }) ∧
  (∀ (s t : State) (c : Code) (d : DState), s.uopPort = none → Decoding d s → d ≠ .emit →
    bcRead s = (some c, t) → step s = exec (decodeCode c) t) ∧
  (∀ (s : State) (w : Word) (rest : List Word) (i : Instr), s.uopPort = none → s.busy = false →
    s.cmdq = w :: rest → decodeCmd w = .ok i → step s = exec i { s with cmdq := rest }) ∧
  (∀ s : State, s.uopPort = none → s.busy = false → s.cmdq = [] → step s = .next s)

/-- Words written out from the encodings of R50, R58 and R61 decode to their instructions. -/
def Obligations.KnownWordsDecode : Prop :=
  decodeCmd 0x20000061#32 = .ok (.cNameb 0x61#8) ∧ decodeCmd 0xB0000000#32 = .ok .dFile ∧
  decodeCmd 0x10000100#32 = .reject .rsvNonzero ∧ decodeCmd 0x10000001#32 = .reject .immNonzero ∧
  decodeUop 0x7100#16 = .dictEinsert 0x100#12 ∧ decodeUop 0xA123#16 = .uopReserved 0xA#4 0x123#12 ∧
  decodeCode 0xFFF#12 = .sent ∧ decodeCode 0x041#12 = .lit 0x41#8 ∧ decodeCode 0xFFE#12 = .dyn 0xFFE#12

/-- No bit of an encoding is dropped: every well-formed instruction comes back from its word. -/
def Obligations.DecodeOfEncodeIsIdentity : Prop := ∀ i : Instr, i.wf = true → decode (encode i) = .ok i

/-- R58: every word either selects exactly one mnemonic, by match and mask, or is illegal by R59; and the
decoder answers that mnemonic with IMM8 = w[7:0]. -/
def Obligations.EveryWordSelectsOneMnemonicOrIsIllegal : Prop :=
  ∀ w : Word,
    (IllegalWord w → ∀ r ∈ commandRows, w &&& r.2.1 ≠ r.1) ∧
    (¬ IllegalWord w → ∃ r ∈ commandRows, w &&& r.2.1 = r.1 ∧
      decodeCmd w = .ok (r.2.2 (w.extractLsb' 0 8)) ∧
      ∀ q ∈ commandRows, w &&& q.2.1 = q.1 → q.1 = r.1)

/-- R50: the three classes, in their order, and R37: they are the whole code space, so every code is a
well-formed instruction. -/
def Obligations.CodeClassesAreTheWholeCodeSpace : Prop :=
  ∀ c : Code, (decodeCode c).wf = true ∧
    (c = 0xFFF#12 → decodeCode c = .sent) ∧
    (c.toNat < 0x100 → decodeCode c = .lit (c.extractLsb' 0 8)) ∧
    (0x100 ≤ c.toNat → c.toNat ≤ 0xFFE → decodeCode c = .dyn c)

/-! ## Reset and the read window -/

/-- R121: after reset every register is at its value, so that every window address reads 0 but DICT, which
reads 256 (R27); and ABORT sets the same values and leaves the ports. -/
def Obligations.ResetReadsAsPowerOn : Prop :=
  ResetValues State.reset ∧
  (∀ a : BitVec 4, regRead a State.reset = if a = 3#4 then 256#32 else 0#32) ∧
  ∀ s : State, s.busy = false → ∃ t, exec .abort s = .next t ∧ ResetValues t ∧
    t.aout = s.aout ∧ t.dout = s.dout ∧ t.ain = s.ain

/-- R27: the fields of the ten registers, at their bit positions; unlisted bits and addresses read 0; the host
reads a register whenever BUSY = 0. Before them the numbers of MODE (R13), DSTATE (R26) and FCODE (R109), which
STATUS shows, and of the DOUT tags (R40). -/
def Obligations.ReadWindowFields : Prop :=
  (Mode.idle.bits = 0#3 ∧ Mode.chdr.bits = 1#3 ∧ Mode.cbody.bits = 2#3 ∧ Mode.cfile.bits = 3#3 ∧
    Mode.dhdr.bits = 4#3 ∧ Mode.dbody.bits = 5#3 ∧ Mode.dfile.bits = 6#3 ∧ Mode.fault.bits = 7#3) ∧
  (DState.first.bits = 0#2 ∧ DState.emit.bits = 1#2 ∧ DState.next.bits = 2#2) ∧
  (FCode.none.bits = 0#4 ∧ FCode.illegalCmd.bits = 1#4 ∧ FCode.seqError.bits = 2#4 ∧
    FCode.countError.bits = 3#4 ∧ FCode.emptyName.bits = 4#4 ∧ FCode.badNameByte.bits = 5#4 ∧
    FCode.hdrTruncated.bits = 6#4 ∧ FCode.streamExhausted.bits = 7#4 ∧ FCode.decodeMiss.bits = 8#4 ∧
    FCode.entryTooLong.bits = 9#4) ∧
  (DTag.data.bits = 0#3 ∧ DTag.nameb.bits = 1#3 ∧ DTag.nameEnd.bits = 2#3 ∧ DTag.hdrEnd.bits = 3#3 ∧
    DTag.fileEnd.bits = 4#3) ∧
  ∀ s : State,
    (∀ a, s.busy = false → hostRegRead a s = some (regRead a s)) ∧
    (regRead 0x0#4 s).extractLsb' 0 3 = s.mode.bits ∧
    (regRead 0x0#4 s).getLsbD 3 = s.busy ∧
    (regRead 0x0#4 s).extractLsb' 4 4 = s.fcode.bits ∧
    (regRead 0x0#4 s).getLsbD 8 = s.tailDrop ∧ (regRead 0x0#4 s).getLsbD 9 = s.truncSent ∧
    (regRead 0x0#4 s).getLsbD 10 = s.nameOpen ∧
    ((regRead 0x0#4 s).getLsbD 11 = true ↔ s.sbuf ≠ []) ∧
    (regRead 0x0#4 s).getLsbD 12 = s.lineOpen ∧
    (regRead 0x0#4 s).extractLsb' 13 2 = s.dstate.bits ∧
    (regRead 0x0#4 s).extractLsb' 15 17 = 0#17 ∧
    regRead 0x1#4 s = s.nfiles ∧ regRead 0x2#4 s = s.fidx ∧
    regRead 0x3#4 s = s.nextCode.setWidth 32 ∧
    (regRead 0x4#4 s).toNat = s.wbits.toNat + s.wcnt.toNat * 2 ^ 8 ∧
    (regRead 0x5#4 s).toNat = s.rbits.toNat + s.rcnt.toNat * 2 ^ 12 ∧
    (s.sbuf = [] → regRead 0x6#4 s = 0#32) ∧
    (∀ c, s.sbuf ≠ [] → dictElookup s.sbuf s = some c → s.sbuf.length < 4096 →
      (regRead 0x6#4 s).toNat = c.toNat + s.sbuf.length * 2 ^ 12) ∧
    (s.curStr.length < 4096 →
      (regRead 0x7#4 s).toNat = s.curCode.toNat + s.curStr.length * 2 ^ 12) ∧
    regRead 0x8#4 s = s.fcmd ∧
    (regRead 0x9#4 s).toNat = s.finfo.fval.toNat + s.finfo.frcnt.toNat * 2 ^ 12 +
      s.finfo.fvalValid.toNat * 2 ^ 16 + s.finfo.frcntValid.toNat * 2 ^ 17 ∧
    (∀ a : BitVec 4, 0xA ≤ a.toNat → regRead a s = 0#32)

/-! ## Dispatch, faults and ABORT -/

/-- R97: a legal word's command in a mode that does not admit it raises SEQ_ERROR; ABORT has no such mode. -/
def Obligations.OutOfModeCommandRaisesSeqError : Prop :=
  ∀ (s : State) (w : Word) (i : Instr), s.busy = false → s.mode ≠ .fault → ¬ IllegalWord w →
    decodeCmd w = .ok i → ¬ LegalOpcode s.mode (w.extractLsb' 28 4) →
    exec i s = .next (faulted .seqError w noInfo s)

/-- R110: the reserved opcodes raise ILLEGAL_CMD with FCMD = the word, before the mode is checked; in
FAULT they are refused. -/
def Obligations.ReservedOpcodesRaiseIllegalCmd : Prop :=
  ∀ (s : State) (r : BitVec 28), s.busy = false →
    (s.mode ≠ .fault →
      exec (.illegalOp0 r) s = .next (faulted .illegalCmd (0x0#4 ++ r) noInfo s) ∧
      exec (.illegalOpE r) s = .next (faulted .illegalCmd (0xE#4 ++ r) noInfo s) ∧
      exec (.illegalOpF r) s = .next (faulted .illegalCmd (0xF#4 ++ r) noInfo s)) ∧
    (s.mode = .fault →
      exec (.illegalOp0 r) s = .next s ∧ exec (.illegalOpE r) s = .next s ∧
      exec (.illegalOpF r) s = .next s)

/-- FAULT is sticky over any number of steps, from R115: as long as no word is ABORT, no register changes, no port
event occurs and no fault is taken. That the refused words are consumed, `cmdq := s.cmdq.drop k`, is the model's
(log entry 9, DEDUCED), over its list form of the port (log entry 1, DESIGN CHOICE). -/
def Obligations.FaultIsStickyUntilAbort : Prop :=
  ∀ (k : Nat) (s : State), s.mode = .fault → s.busy = false → s.uopPort = none →
    (∀ w ∈ s.cmdq, w ≠ 0xD0000000#32) →
    Host.Core.run Sys2Proof.core k s = .next { s with cmdq := s.cmdq.drop k }

/-- R108: ABORT sets every register to its reset value, in every mode, and leaves ENTRY and the ports; an ABORT
word with any other bit set is illegal. -/
def Obligations.AbortRestoresEveryRegister : Prop :=
  decodeCmd 0xD0000000#32 = .ok .abort ∧ encode .abort = .cmd 0xD0000000#32 ∧
  (∀ w : Word, w ≠ 0xD0000000#32 → w.extractLsb' 28 4 = 0xD#4 → IllegalWord w) ∧
  ∀ s : State, s.busy = false →
    exec .abort s = .next
      { s with
        mode := .idle, busy := false, nfiles := 0#32, fidx := 0#32, nameOpen := false
        lineOpen := false, tailDrop := false, truncSent := false, fcode := .none, fcmd := 0#32
        finfo := noInfo, wbits := 0#7, wcnt := 0#3, rbits := 0#12, rcnt := 0#4, nextCode := 256#12
        sbuf := [], curCode := 0#12, curStr := [], dstate := .first }

/-- R48 H1: a command given to the core while BUSY = 1 has no move. That the model writes "no move" as a refusal
is its choice (log entry 10). -/
def Obligations.NoCommandWhileBusy : Prop :=
  ∀ (s : State) (w : Word) (i : Instr), s.busy = true → decodeCmd w = .ok i →
    exec i s = .refused .commandWhileBusy

/-! ## Compress commands -/

/-- R98: the word, the mode and the effect. -/
def Obligations.CStartOpensCompress : Prop :=
  CommandHead 0x10000000#32 .cStart .idle ∧
  ∀ s : State, Ready .idle s →
    exec .cStart s = .next
      { s with
        wbits := 0#7, wcnt := 0#3, nfiles := 0#32, fidx := 0#32, nameOpen := false
        tailDrop := false, truncSent := false, nextCode := 256#12, sbuf := [], mode := .chdr }

/-- R99: the word, the mode and the effect. -/
def Obligations.CNamebWritesOneNameByte : Prop :=
  (∀ b : Byte, CommandHead (0x200000#24 ++ b) (.cNameb b) .chdr) ∧
  ∀ (s : State) (b : Byte), Ready .chdr s →
    (b = 0x0A#8 → exec (.cNameb b) s = .next (faulted .badNameByte (0x200000#24 ++ b) noInfo s)) ∧
    (b ≠ 0x0A#8 → exec (.cNameb b) s = .next { s with aout := s.aout ++ [b], nameOpen := true })

/-- R100: the word, the mode and the effect. -/
def Obligations.CNameendEndsTheName : Prop :=
  CommandHead 0x30000000#32 .cNameend .chdr ∧
  ∀ s : State, Ready .chdr s →
    (s.nameOpen = false → exec .cNameend s = .next (faulted .emptyName 0x30000000#32 noInfo s)) ∧
    (s.nameOpen = true → s.nfiles = 0xFFFFFFFF#32 →
      exec .cNameend s = .next (faulted .countError 0x30000000#32 noInfo s)) ∧
    (s.nameOpen = true → s.nfiles ≠ 0xFFFFFFFF#32 →
      exec .cNameend s = .next
        { s with aout := s.aout ++ [0x0A#8], nfiles := s.nfiles + 1#32, nameOpen := false })

/-- R101: the word, the mode and the effect. -/
def Obligations.CHdrendEndsTheHeader : Prop :=
  CommandHead 0x40000000#32 .cHdrend .chdr ∧
  ∀ s : State, Ready .chdr s →
    (s.nameOpen = true → exec .cHdrend s = .next (faulted .seqError 0x40000000#32 noInfo s)) ∧
    (s.nameOpen = false → s.nfiles = 0#32 →
      exec .cHdrend s = .next (faulted .countError 0x40000000#32 noInfo s)) ∧
    (s.nameOpen = false → s.nfiles ≠ 0#32 →
      exec .cHdrend s = .next { s with aout := s.aout ++ [0x0A#8], fidx := 0#32, mode := .cbody })

/-- R79: the word, the mode and the effect. -/
def Obligations.CFbeginStartsASegment : Prop :=
  CommandHead 0x50000000#32 .cFbegin .cbody ∧
  ∀ s : State, Ready .cbody s →
    (s.nfiles.toNat ≤ s.fidx.toNat →
      exec .cFbegin s = .next (faulted .countError 0x50000000#32 noInfo s)) ∧
    (s.fidx.toNat < s.nfiles.toNat →
      exec .cFbegin s = .next { s with nextCode := 256#12, sbuf := [], mode := .cfile })

/-- R80: the three branches of C_DATA; in the third the emitted code and the inserted string are those of
the epoch before the reset (R123). -/
def Obligations.CDataExtendsOrEmits : Prop :=
  (∀ b : Byte, CommandHead (0x600000#24 ++ b) (.cData b) .cfile) ∧
  ∀ (s : State) (b : Byte), Ready .cfile s →
    (s.sbuf = [] → exec (.cData b) s = .next { s with sbuf := [b] }) ∧
    (∀ k, s.sbuf ≠ [] → dictElookup (s.sbuf ++ [b]) s = some k →
      exec (.cData b) s = .next { s with sbuf := s.sbuf ++ [b] }) ∧
    (∀ k, s.sbuf ≠ [] → dictElookup (s.sbuf ++ [b]) s = none → dictElookup s.sbuf s = some k →
      s.sbuf.length ≤ 3840 → 256 ≤ s.nextCode.toNat →
      exec (.cData b) s = .next
        { withEntry (allocated s) (s.sbuf ++ [b]) (bcWrite k s) with sbuf := [b] })

/-- R81: the word, the mode and the effect. -/
def Obligations.CFendFlushesMatchAndSentinel : Prop :=
  CommandHead 0x70000000#32 .cFend .cfile ∧
  ∀ s : State, Ready .cfile s →
    (s.sbuf = [] → exec .cFend s = .next
      { bcWrite 0xFFF#12 s with sbuf := [], fidx := s.fidx + 1#32, mode := .cbody }) ∧
    (∀ k, s.sbuf ≠ [] → dictElookup s.sbuf s = some k → exec .cFend s = .next
      { bcWrite 0xFFF#12 (bcWrite k s) with sbuf := [], fidx := s.fidx + 1#32, mode := .cbody })

/-- R102: the word, the mode and the effect. -/
def Obligations.CFinishClosesCompress : Prop :=
  CommandHead 0x80000000#32 .cFinish .cbody ∧
  ∀ s : State, Ready .cbody s →
    (s.fidx ≠ s.nfiles → exec .cFinish s = .next (faulted .countError 0x80000000#32 noInfo s)) ∧
    (s.fidx = s.nfiles →
      exec .cFinish s = .next { s with tailDrop := decide (s.wcnt ≠ 0#3), mode := .idle })

/-! ## Decompress commands -/

/-- R104: the word, the mode and the effect. -/
def Obligations.DStartOpensDecompress : Prop :=
  CommandHead 0x90000000#32 .dStart .idle ∧
  ∀ s : State, Ready .idle s →
    exec .dStart s = .next
      { s with
        rbits := 0#12, rcnt := 0#4, nfiles := 0#32, fidx := 0#32, lineOpen := false
        tailDrop := false, truncSent := false, nextCode := 256#12, curCode := 0#12, curStr := []
        dstate := .first, mode := .dhdr }

/-- R105: the acceptance of D_NAME, and its micro-step DN_STEP, one header byte a step. -/
def Obligations.DNameReadsOneHeaderLine : Prop :=
  CommandHead 0xA0000000#32 .dName .dhdr ∧
  (∀ s : State, Ready .dhdr s → exec .dName s = .next { s with busy := true }) ∧
  (∀ s : State, s.uopPort = none → s.busy = true → s.mode = .dhdr →
    (s.ain = [] → step s = .next (faulted .hdrTruncated 0xA0000000#32 noInfo s)) ∧
    (∀ b rest, s.ain = b :: rest → b ≠ 0x0A#8 →
      step s = .next { s with ain := rest, dout := s.dout ++ [⟨.nameb, b⟩], lineOpen := true }) ∧
    (∀ rest, s.ain = 0x0A#8 :: rest → s.lineOpen = true → s.nfiles = 0xFFFFFFFF#32 →
      step s = .next (faulted .countError 0xA0000000#32 noInfo { s with ain := rest })) ∧
    (∀ rest, s.ain = 0x0A#8 :: rest → s.lineOpen = true → s.nfiles ≠ 0xFFFFFFFF#32 →
      step s = .next
        { s with
          ain := rest, dout := s.dout ++ [⟨.nameEnd, 0#8⟩], nfiles := s.nfiles + 1#32
          lineOpen := false, busy := false }) ∧
    (∀ rest, s.ain = 0x0A#8 :: rest → s.lineOpen = false → s.nfiles = 0#32 →
      step s = .next (faulted .countError 0xA0000000#32 noInfo { s with ain := rest })) ∧
    (∀ rest, s.ain = 0x0A#8 :: rest → s.lineOpen = false → s.nfiles ≠ 0#32 →
      step s = .next
        { s with
          ain := rest, dout := s.dout ++ [⟨.hdrEnd, 0#8⟩], fidx := 0#32, busy := false
          mode := .dbody }))

/-- The acceptance step of R85. -/
def Obligations.DFileAcceptsASegment : Prop :=
  CommandHead 0xB0000000#32 .dFile .dbody ∧
  ∀ s : State, Ready .dbody s →
    (s.nfiles.toNat ≤ s.fidx.toNat →
      exec .dFile s = .next (faulted .countError 0xB0000000#32 noInfo s)) ∧
    (s.fidx.toNat < s.nfiles.toNat →
      exec .dFile s = .next
        { s with busy := true, mode := .dfile, nextCode := 256#12, dstate := .first })

/-- R86, over a dictionary register in its range: the micro-step DS_FIRST. -/
def Obligations.DsFirstResolvesTheFirstCode : Prop :=
  ∀ s t : State, s.uopPort = none → Decoding .first s → 256 ≤ s.nextCode.toNat →
    (bcRead s = (none, t) → step s = .next (exhausted t)) ∧
    (bcRead s = (some 0xFFF#12, t) → step s = .next (segmentEnded t)) ∧
    (∀ r, bcRead s = (some r, t) → r ≠ 0xFFF#12 → s.nextCode.toNat ≤ r.toNat →
      step s = .next (faulted .decodeMiss 0xB0000000#32 ⟨r, 0#4, true, false⟩ t)) ∧
    (∀ r x, bcRead s = (some r, t) → r.toNat < s.nextCode.toNat → r ≠ 0xFFF#12 →
      stringOf r.toNat t = some x →
      step s = .next { t with curCode := r, curStr := x, dstate := .emit })

/-- R87: the micro-step DS_EMIT. -/
def Obligations.DsEmitWritesTheCurrentString : Prop :=
  ∀ s : State, s.uopPort = none → Decoding .emit s →
    step s = .next { s with dout := s.dout ++ s.curStr.map (fun b => ⟨.data, b⟩), dstate := .next }

/-- R88, over a decoder that has a current string and a dictionary in its invariant: the micro-step
DS_NEXT. The reset comes before the code is resolved (R125), and the string inserted is the one held
before the reset (R124). -/
def Obligations.DsNextGrowsTheDictionary : Prop :=
  ∀ s t : State, Inv s → Decoding .next s →
    (bcRead s = (none, t) → step s = .next (exhausted t)) ∧
    (bcRead s = (some 0xFFF#12, t) → step s = .next (segmentEnded t)) ∧
    (∀ r, bcRead s = (some r, t) → r ≠ 0xFFF#12 → NextCodeOutcome r t (step s))

/-- R90, R89: the sentinel ends the segment in DS_FIRST and in DS_NEXT. -/
def Obligations.SentEndsTheSegment : Prop :=
  decodeCode 0xFFF#12 = .sent ∧
  ∀ s : State, Decoding .first s ∨ Decoding .next s → exec .sent s = .next (segmentEnded s)

/-- R91 with R86 and R88: LIT always resolves, in every epoch and at both positions, to the one-byte string
[d]. In DS_NEXT it inserts CUR_STR ++ [d] at the allocated code first, and that insertion raises
ENTRY_TOO_LONG where the entry would have more than MAX_ENTRY_LEN bytes. -/
def Obligations.LitResolvesToItsByte : Prop :=
  ∀ (s : State) (d : Byte),
    (Decoding .first s →
      exec (.lit d) s = .next { s with curCode := 0x0#4 ++ d, curStr := [d], dstate := .emit }) ∧
    (Decoding .next s → s.curStr ≠ [] → 256 ≤ s.nextCode.toNat →
      (s.curStr.length ≤ 3840 →
        exec (.lit d) s = .next
          { withEntry (allocated s) (s.curStr ++ [d]) s with
            curCode := 0x0#4 ++ d, curStr := [d], dstate := .emit }) ∧
      (3841 ≤ s.curStr.length →
        exec (.lit d) s = .next
          (faulted .entryTooLong 0xB0000000#32 ⟨0x0#4 ++ d, 0#4, true, false⟩
            { s with nextCode := allocated s })))

/-- R92 with R88: DYN resolves by position. In DS_FIRST it is a miss; in DS_NEXT, against n = NEXT after the
allocation: an entry for c < n, the KwKwK case for c = n, a miss for c > n. -/
def Obligations.DynResolvesByPosition : Prop :=
  ∀ (s : State) (c : Code), 0x100 ≤ c.toNat → c.toNat ≤ 0xFFE → s.entry.wf = true →
    (Decoding .first s → s.nextCode = 256#12 →
      exec (.dyn c) s = .next (faulted .decodeMiss 0xB0000000#32 ⟨c, 0#4, true, false⟩ s)) ∧
    (Decoding .next s → s.curStr ≠ [] → 256 ≤ s.nextCode.toNat →
      (∀ fc y, s.curStr.length ≤ 3840 → c.toNat < (allocated s).toNat →
        memRead c.toNat s.entry = fc :: y →
        exec (.dyn c) s = .next
          { withEntry (allocated s) (s.curStr ++ [fc]) s with
            curCode := c, curStr := fc :: y, dstate := .emit }) ∧
      (∀ fc y, s.curStr.length ≤ 3840 → c = allocated s → s.curStr = fc :: y →
        exec (.dyn c) s = .next
          { withEntry (allocated s) (s.curStr ++ [fc]) s with
            curCode := c, curStr := s.curStr ++ [fc], dstate := .emit }) ∧
      (3841 ≤ s.curStr.length → c.toNat ≤ (allocated s).toNat →
        (c.toNat < (allocated s).toNat → memRead c.toNat s.entry ≠ []) →
        exec (.dyn c) s = .next
          (faulted .entryTooLong 0xB0000000#32 ⟨c, 0#4, true, false⟩
            { s with nextCode := allocated s })) ∧
      ((allocated s).toNat < c.toNat →
        exec (.dyn c) s = .next
          (faulted .decodeMiss 0xB0000000#32 ⟨c, 0#4, true, false⟩
            { s with nextCode := allocated s })))

/-- R106: the word, the mode and the effect. -/
def Obligations.DFinishClosesDecompress : Prop :=
  CommandHead 0xC0000000#32 .dFinish .dbody ∧
  ∀ s : State, Ready .dbody s →
    (s.fidx ≠ s.nfiles → exec .dFinish s = .next (faulted .countError 0xC0000000#32 noInfo s)) ∧
    (s.fidx = s.nfiles → exec .dFinish s = .next { s with mode := .idle })

/-! ## Micro-operations -/

/-- R64: BC_WRITE appends the 12 bits of the code, MSB first, to the bits held: the whole bytes go to
AOUT, the residue of fewer than 8 bits stays in WBITS, and nothing else changes. -/
def Obligations.BcWriteAppendsTwelveBits : Prop :=
  (∀ c : Code, decodeUop (0x0#4 ++ c) = .bcWrite c) ∧
  ∀ (s : State) (c : Code), ∃ out wb wc,
    exec (.bcWrite c) s = .next { s with aout := s.aout ++ out, wbits := wb, wcnt := wc } ∧
    out.flatMap byteBits ++ msbBits wc.toNat wb.toNat =
      msbBits s.wcnt.toNat s.wbits.toNat ++ codeBits c ∧
    wb.toNat < 2 ^ wc.toNat

/-- R67: BC_READ takes the 12 oldest bits of the input. With fewer than 12 bits it keeps them all buffered and
answers EXHAUSTED. Otherwise it pulls exactly the k bytes it needs, RCNT + 8k = 12 + the bits left, and at most 7
bits are left. In every state, RCNT above 11 included, it goes on and writes AIN, RBITS, RCNT and the result
alone. -/
def Obligations.BcReadTakesTwelveBits : Prop :=
  (∀ c : Code, decodeUop (0x1#4 ++ c) = .bcRead) ∧
  (∀ s : State, ∃ bs rb rc r,
    exec .bcRead s = .next { s with ain := bs, rbits := rb, rcnt := rc, uopRes := r }) ∧
  ∀ s : State, s.rcnt.toNat ≤ 11 →
    ((inputBits s).length < 12 → ∃ rb rc,
      exec .bcRead s = .next { s with ain := [], rbits := rb, rcnt := rc, uopRes := .exhausted } ∧
      msbBits rc.toNat rb.toNat = inputBits s ∧
      (s.rbits.toNat < 2 ^ s.rcnt.toNat → rb.toNat < 2 ^ rc.toNat)) ∧
    (12 ≤ (inputBits s).length → ∃ k c rb rc,
      exec .bcRead s = .next
        { s with ain := s.ain.drop k, rbits := rb, rcnt := rc, uopRes := .code c } ∧
      k ≤ s.ain.length ∧ s.rcnt.toNat + 8 * k = 12 + rc.toNat ∧ rc.toNat ≤ 7 ∧
      codeBits c = (inputBits s).take 12 ∧
      msbBits rc.toNat rb.toNat = ((inputBits s).take (s.rcnt.toNat + 8 * k)).drop 12 ∧
      rb.toNat < 2 ^ rc.toNat)

/-- R66 and R68: BC_WCLR and BC_RCLR empty the write and the read BitBuffer and nothing else. -/
def Obligations.ClearsEmptyTheBitBuffers : Prop :=
  (∀ c : Code, decodeUop (0x2#4 ++ c) = .bcWclr ∧ decodeUop (0x3#4 ++ c) = .bcRclr) ∧
  ∀ s : State, exec .bcWclr s = .next { s with wbits := 0#7, wcnt := 0#3 } ∧
    exec .bcRclr s = .next { s with rbits := 0#12, rcnt := 0#4 }

/-- R72 and R74: DICT_RESET sets NEXT to 256; DICT_ALLOC does so first when NEXT = 4095, and returns NEXT. -/
def Obligations.DictResetAndAlloc : Prop :=
  (∀ c : Code, decodeUop (0x4#4 ++ c) = .dictReset ∧ decodeUop (0x5#4 ++ c) = .dictAlloc) ∧
  ∀ s : State, exec .dictReset s = .next { s with nextCode := 256#12 } ∧
    (s.nextCode = 4095#12 →
      exec .dictAlloc s = .next { s with nextCode := 256#12, uopRes := .code 256#12 }) ∧
    (s.nextCode ≠ 4095#12 → exec .dictAlloc s = .next { s with uopRes := .code s.nextCode })

/-- R75: DICT_ELOOKUP answers a one-byte string's literal, otherwise the lowest code of the epoch that
holds exactly the string, or absent; it changes nothing else. -/
def Obligations.ElookupFindsTheLowestCode : Prop :=
  (∀ c : Code, decodeUop (0x6#4 ++ c) = .dictElookup) ∧
  ∀ s : State, s.entry.wf = true → s.strBus ≠ [] →
    (∀ b, s.strBus = [b] → exec .dictElookup s = .next { s with uopRes := .code (0x0#4 ++ b) }) ∧
    (∀ c : Code, 2 ≤ s.strBus.length → Holds s c.toNat s.strBus →
      (∀ d, d < c.toNat → ¬ Holds s d s.strBus) →
      exec .dictElookup s = .next { s with uopRes := .code c }) ∧
    (2 ≤ s.strBus.length → (∀ d, ¬ Holds s d s.strBus) →
      exec .dictElookup s = .next { s with uopRes := .absent })

/-- R77: DICT_DLOOKUP answers D(c), or absent for c at or above NEXT. -/
def Obligations.DlookupAnswersTheString : Prop :=
  (∀ c : Code, decodeUop (0x8#4 ++ c) = .dictDlookup c) ∧
  ∀ (s : State) (c : Code),
    (∀ x, stringOf c.toNat s = some x → exec (.dictDlookup c) s = .next { s with uopRes := .str x }) ∧
    (stringOf c.toNat s = none → exec (.dictDlookup c) s = .next { s with uopRes := .absent })

/-- R76 and R78: DICT_EINSERT and DICT_DINSERT, under their precondition, store the whole string at c = NEXT
and make NEXT c + 1; every other entry reads as before. -/
def Obligations.InsertsStoreTheStringAtNext : Prop :=
  (∀ c : Code, decodeUop (0x7#4 ++ c) = .dictEinsert c ∧ decodeUop (0x9#4 ++ c) = .dictDinsert c) ∧
  ∀ (s : State) (c : Code), c = s.nextCode → 256 ≤ c.toNat → c.toNat ≤ 4094 →
    2 ≤ s.strBus.length → s.strBus.length ≤ 3841 → s.entry.wf = true →
    ∃ t, exec (.dictEinsert c) s = .next t ∧ exec (.dictDinsert c) s = .next t ∧
      t = { s with entry := t.entry, nextCode := t.nextCode } ∧
      t.nextCode.toNat = c.toNat + 1 ∧ memRead c.toNat t.entry = s.strBus ∧
      ∀ d, d ≠ c.toNat → memRead d t.entry = memRead d s.entry

/-- The model's stops (log entries 5, 6 and 11, the model's choice): a reserved selector, which R61 says is
never issued, an insertion outside its precondition, and a code when none is being read. -/
def Obligations.ModelStopsByName : Prop :=
  (∀ (sel : BitVec 4) (c : Code), 0xA ≤ sel.toNat → decodeUop (sel ++ c) = .uopReserved sel c) ∧
  (∀ (s : State) (sel : BitVec 4) (c : Code), exec (.uopReserved sel c) s = .fault .reservedSelector) ∧
  (∀ (s : State) (c : Code), ¬ (c = s.nextCode ∧ 256 ≤ c.toNat ∧ c.toNat ≤ 4094 ∧
      2 ≤ s.strBus.length ∧ s.strBus.length ≤ 3841) →
    exec (.dictEinsert c) s = .fault .insertPrecondition ∧
    exec (.dictDinsert c) s = .fault .insertPrecondition) ∧
  (∀ (s : State) (d : Byte) (c : Code), ¬ (Decoding .first s ∨ Decoding .next s) →
    exec .sent s = .fault .noCodeExpected ∧ exec (.lit d) s = .fault .noCodeExpected ∧
    exec (.dyn c) s = .fault .noCodeExpected)

/-! ## Invariants of the whole machine -/

/-- The invariant holds after reset. -/
def Obligations.ResetSatisfiesTheInvariant : Prop := Inv State.reset ∧ InvDistinct State.reset

/-- The invariant is kept by every step, from every state that has it. -/
def Obligations.StepKeepsTheInvariant : Prop := ∀ s t : State, Inv s → step s = .next t → Inv t

/-- No state with the invariant stops: R96 "the dispatch is total", R82 and R83 make every lookup and every
insertion of C_DATA and C_FEND succeed, and R80, R81 and R88 raise no other fault. -/
def Obligations.StepNeverStopsUnderTheInvariant : Prop := ∀ s : State, Inv s → Continues (step s)

/-- R82 and R83, from the invariant: S has at most MAX_MATCH_LEN bytes, and a non-empty S is the string of a
code of the current epoch. -/
def Obligations.MatchIsBoundedAndPresent : Prop :=
  ∀ s : State, Inv s → s.sbuf.length ≤ 3840 ∧
    (s.sbuf ≠ [] → ∃ k, dictElookup s.sbuf s = some k ∧ stringOf k.toNat s = some s.sbuf)

/-- R35: in a compress operation no two present codes hold the same string, and every step keeps it so. -/
def Obligations.StepKeepsEntriesDistinct : Prop :=
  ∀ s t : State, Inv s → InvDistinct s → step s = .next t → InvDistinct t

/-- The host's moves (R48 H1, H3, H9): issuing appends the word to the command port, and is no move while
BUSY = 1; supplying appends the bytes to AIN; a register read is no move while BUSY = 1. The first two keep the
invariant. The port as a list is the model's (log entry 1). -/
def Obligations.HostMovesKeepTheInvariant : Prop :=
  (∀ (s : State) (w : Word), s.busy = false → hostIssue w s = some { s with cmdq := s.cmdq ++ [w] }) ∧
  (∀ (s : State) (w : Word), s.busy = true → hostIssue w s = none) ∧
  (∀ (s : State) (bs : Bytes), hostSupply bs s = { s with ain := s.ain ++ bs }) ∧
  (∀ (s t : State) (w : Word), Inv s → hostIssue w s = some t → Inv t) ∧
  (∀ (s : State) (bs : Bytes), Inv s → Inv (hostSupply bs s)) ∧
  (∀ (s : State) (a : BitVec 4), s.busy = true → hostRegRead a s = none)

/-- R38, R39, R40: AOUT and DOUT are only appended to, and AIN is only consumed from the front. -/
def Obligations.PortsAreAppendOnlyAndConsumeOnly : Prop :=
  ∀ s t : State, step s = .next t →
    (∃ x, t.aout = s.aout ++ x) ∧ (∃ x, t.dout = s.dout ++ x) ∧ ∃ x, s.ain = x ++ t.ain

/-- R38, R39, R40: only compress commands and BC_WRITE put bytes on AOUT; only micro-steps put events on
DOUT, among the instructions SENT alone; only BC_READ takes bytes from AIN. -/
def Obligations.PortWriters : Prop :=
  ∀ (i : Instr) (s t : State), exec i s = .next t →
    (t.aout ≠ s.aout → compressInstr i = true ∨ ∃ c, i = .bcWrite c) ∧
    (t.dout ≠ s.dout → i = .sent) ∧ (t.ain ≠ s.ain → i = .bcRead)

/-- R20: only fault entry and ABORT write FCODE, FCMD or FINFO: first over the instructions, then over every
move of the core, the illegal words and the micro-steps of D_NAME and D_FILE included. A move that writes them
enters FAULT from another mode with a fault code and BUSY = 0 (R113), or is ABORT from the command port and
clears all three (R116). -/
def Obligations.OnlyFaultEntryAndAbortWriteFaultRegisters : Prop :=
  (∀ (i : Instr) (s t : State), exec i s = .next t →
    (t.fcode ≠ s.fcode ∨ t.fcmd ≠ s.fcmd ∨ t.finfo ≠ s.finfo) →
    i = .abort ∨ (t.mode = .fault ∧ s.mode ≠ .fault)) ∧
  ∀ s t : State, step s = .next t →
    (t.fcode ≠ s.fcode ∨ t.fcmd ≠ s.fcmd ∨ t.finfo ≠ s.finfo) →
    (s.mode ≠ .fault ∧ t.mode = .fault ∧ t.fcode ≠ .none ∧ t.busy = false) ∨
    (s.uopPort = none ∧ s.busy = false ∧ s.cmdq.head? = some 0xD0000000#32 ∧ t.mode = .idle ∧
      t.fcode = .none ∧ t.fcmd = 0#32 ∧ t.finfo = noInfo)

/-- R15, R16: which instructions write the file counters (D_NAME's writes are in its micro-steps). -/
def Obligations.CounterWriters : Prop :=
  ∀ (i : Instr) (s t : State), exec i s = .next t →
    (t.nfiles ≠ s.nfiles → i = .cStart ∨ i = .cNameend ∨ i = .dStart ∨ i = .abort) ∧
    (t.fidx ≠ s.fidx →
      i = .cStart ∨ i = .cHdrend ∨ i = .cFend ∨ i = .dStart ∨ i = .abort ∨ i = .sent)

/-- R127: the two lifetimes. A BitBuffer changes only where bits are written or read, and is cleared only by
C_START, D_START and ABORT; the dictionary changes only by insertion or by starting an epoch. -/
def Obligations.BufferAndDictionaryWriters : Prop :=
  ∀ (i : Instr) (s t : State), microOperation i = false → exec i s = .next t →
    ((t.wbits, t.wcnt) ≠ (s.wbits, s.wcnt) →
      i = .cStart ∨ i = .abort ∨ i = .cFend ∨ ∃ b, i = .cData b) ∧
    ((t.rbits, t.rcnt) ≠ (s.rbits, s.rcnt) → i = .dStart ∨ i = .abort) ∧
    (t.nextCode ≠ s.nextCode →
      i = .cStart ∨ i = .dStart ∨ i = .abort ∨ i = .cFbegin ∨ i = .dFile ∨
        (∃ b, i = .cData b) ∨ (∃ d, i = .lit d) ∨ ∃ c, i = .dyn c)

/-- R31, R33: an instruction changes at most one dictionary entry, the one at the code just allocated: NEXT
after it is that code plus 1. -/
def Obligations.OnlyTheAllocatedEntryIsWritten : Prop :=
  ∀ (i : Instr) (s t : State), exec i s = .next t →
    ∀ c, memRead c t.entry ≠ memRead c s.entry →
      256 ≤ c ∧ c ≤ 4094 ∧ t.nextCode.toNat = c + 1

/-- R16, R89, R81, R102: a segment ends by C_FEND, or by SEG_END with its FILE_END event, and either advances
FIDX by one without wrap; C_FINISH closes the operation only when every name has its segment. -/
def Obligations.SegmentEndsAdvanceTheIndex : Prop :=
  ∀ s t : State, Inv s → step s = .next t →
    (s.mode = .cfile → t.mode = .cbody → t.fidx.toNat = s.fidx.toNat + 1) ∧
    (s.mode = .dfile → t.mode = .dbody →
      t.fidx.toNat = s.fidx.toNat + 1 ∧ t.dout = s.dout ++ [⟨.fileEnd, 0#8⟩]) ∧
    (s.mode = .cbody → t.mode = .idle → s.cmdq.head? = some 0x80000000#32 → s.fidx = s.nfiles)

/-! ## Formats and round trips -/

/-- R52: a pair of codes fills exactly three bytes. -/
def Obligations.CodePairFillsThreeBytes : Prop :=
  ∀ (c d : Code) (cs : List Code),
    packCodes (c :: d :: cs) =
      c.extractLsb' 4 8 :: (c.extractLsb' 0 4 ++ d.extractLsb' 8 4) :: d.extractLsb' 0 8 :: packCodes cs

/-- R53: the length of the body of N codes, even or odd; the last byte of an odd body is the top of the last
code. -/
def Obligations.BodyLength : Prop :=
  ∀ cs : List Code,
    (cs.length % 2 = 0 → (packCodes cs).length = 3 * cs.length / 2) ∧
    (∀ c, cs.length % 2 = 0 →
      packCodes (cs ++ [c]) = packCodes cs ++ [c.extractLsb' 4 8])

/-- R52, R53, R65: BC_WRITE of a code sequence from an empty write BitBuffer puts exactly the packed body on
AOUT; the 4-bit residue of an odd sequence stays in WBITS, unwritten. -/
def Obligations.WritesProduceThePackedBody : Prop :=
  ∀ (s : State) (cs : List Code), s.wcnt = 0#3 →
    (writeCodes cs s).aout = s.aout ++ packCodes cs ∧
    ((writeCodes cs s).wcnt = if cs.length % 2 = 0 then 0#3 else 4#3) ∧
    ∀ c ds, cs = ds ++ [c] → cs.length % 2 = 1 → (writeCodes cs s).wbits.toNat = c.toNat % 16

/-- R69: what BC_WRITE wrote BC_READ reads: from an empty read BitBuffer the reads of a packed body answer
its codes in order, all of them if their number is even; if it is odd, all but the last, and the read after
them answers EXHAUSTED with RCNT = 8 and RBITS = the top 8 bits of the last code. -/
def Obligations.ReadsReturnTheWrittenCodes : Prop :=
  ∀ (cs : List Code) (s : State), s.rcnt = 0#4 → s.rbits = 0#12 → cs.length % 2 = 0 →
    (s.ain = packCodes cs →
      (readCodes cs.length s).1 = cs.map some ∧ (readCodes cs.length s).2.rcnt = 0#4 ∧
      (readCodes cs.length s).2.ain = []) ∧
    (∀ c, s.ain = packCodes (cs ++ [c]) →
      (readCodes (cs.length + 1) s).1 = cs.map some ++ [none] ∧
      (readCodes (cs.length + 1) s).2.rcnt = 8#4 ∧
      (readCodes (cs.length + 1) s).2.ain = [] ∧
      (readCodes (cs.length + 1) s).2.rbits.toNat = c.toNat / 16)

/-- R128: a byte y appended to an archive that ends in a truncated sentinel turns the final read into the
code 0xFF0 | (y >> 4), which is the sentinel only for y at or above 0xF0. -/
def Obligations.AppendedByteChangesTheFinalRead : Prop :=
  ∀ (s : State) (y : Byte) (rest : Bytes), s.rcnt = 0#4 → s.ain = 0xFF#8 :: y :: rest →
    (bcRead s).1 = some (0xFF#8 ++ y.extractLsb' 4 4) ∧
    ((bcRead s).1 = some 0xFFF#12 ↔ 0xF0 ≤ y.toNat)

/-- R122, R103, R98: a compress operation does not depend on anything before its C_START: from any two
states between operations, the same compress commands put the same bytes on AOUT and end with the same MODE,
BUSY, counters, NAME_OPEN, TAIL_DROP, TRUNC_SENT, write BitBuffer, NEXT and S. C_START does not write the fault
registers: where they agree at the start they agree at the end, and STATUS is the same where LINE_OPEN and
DSTATE, which no compress command writes, agree at the start as well. -/
def Obligations.CompressDoesNotDependOnThePast : Prop :=
  ∀ (is : List Instr) (s₁ s₂ t₁ : State), (∀ i ∈ is, compressInstr i = true) →
    Ready .idle s₁ → Ready .idle s₂ → s₁.entry.wf = true → s₂.entry.wf = true →
    runInstrs (.cStart :: is) s₁ = some t₁ →
    ∃ t₂ x, runInstrs (.cStart :: is) s₂ = some t₂ ∧ t₁.aout = s₁.aout ++ x ∧ t₂.aout = s₂.aout ++ x ∧
      t₁.mode = t₂.mode ∧ t₁.busy = t₂.busy ∧ t₁.nfiles = t₂.nfiles ∧ t₁.fidx = t₂.fidx ∧
      t₁.nameOpen = t₂.nameOpen ∧ t₁.tailDrop = t₂.tailDrop ∧ t₁.truncSent = t₂.truncSent ∧
      t₁.wbits = t₂.wbits ∧ t₁.wcnt = t₂.wcnt ∧ t₁.nextCode = t₂.nextCode ∧ t₁.sbuf = t₂.sbuf ∧
      (SameFault s₁ s₂ → SameFault t₁ t₂ ∧
        (s₁.lineOpen = s₂.lineOpen → s₁.dstate = s₂.dstate → regRead 0x0#4 t₁ = regRead 0x0#4 t₂))

/-- R122, R104: a decompress operation does not depend on anything before its D_START: from any two states
between operations that hold the same archive on AIN, the same decompress words put the same events on DOUT and
leave the same input and the same MODE, BUSY, counters, LINE_OPEN, TAIL_DROP, TRUNC_SENT, read BitBuffer, NEXT
and decoder registers. D_START does not write the fault registers: where they agree at the start they agree at
the end, and STATUS is the same where NAME_OPEN and S, which no decompress command writes, agree at the start as
well. -/
def Obligations.DecompressDoesNotDependOnThePast : Prop :=
  ∀ (k : Nat) (ws : List Word) (s₁ s₂ t₁ : State),
    (∀ w ∈ ws, w = 0xA0000000#32 ∨ w = 0xB0000000#32 ∨ w = 0xC0000000#32) →
    Ready .idle s₁ → Ready .idle s₂ → s₁.uopPort = none → s₂.uopPort = none → s₁.ain = s₂.ain →
    s₁.cmdq = 0x90000000#32 :: ws → s₂.cmdq = 0x90000000#32 :: ws →
    Host.Core.run Sys2Proof.core (k + 1) s₁ = .next t₁ →
    ∃ t₂ x, Host.Core.run Sys2Proof.core (k + 1) s₂ = .next t₂ ∧
      t₁.dout = s₁.dout ++ x ∧ t₂.dout = s₂.dout ++ x ∧ t₁.ain = t₂.ain ∧ t₁.cmdq = t₂.cmdq ∧
      t₁.mode = t₂.mode ∧ t₁.busy = t₂.busy ∧ t₁.nfiles = t₂.nfiles ∧ t₁.fidx = t₂.fidx ∧
      t₁.lineOpen = t₂.lineOpen ∧ t₁.tailDrop = t₂.tailDrop ∧ t₁.truncSent = t₂.truncSent ∧
      t₁.rbits = t₂.rbits ∧ t₁.rcnt = t₂.rcnt ∧ t₁.nextCode = t₂.nextCode ∧
      t₁.curCode = t₂.curCode ∧ t₁.curStr = t₂.curStr ∧ t₁.dstate = t₂.dstate ∧
      (SameFault s₁ s₂ → SameFault t₁ t₂ ∧
        (s₁.nameOpen = s₂.nameOpen → s₁.sbuf = s₂.sbuf → regRead 0x0#4 t₁ = regRead 0x0#4 t₂))

/-- R95: round trip. Compress names and contents, decompress the AOUT bytes unchanged: the events are the
names in order, HDR_END, then each file's bytes and FILE_END; there is no fault and MODE = IDLE. -/
def Obligations.DecompressInvertsCompress : Prop :=
  ∀ files : List (Bytes × Bytes), files ≠ [] → files.length < 2 ^ 32 →
    (∀ f ∈ files, validName f.1 = true) →
    ∀ s : State, Inv s → s.mode = .idle →
    ∃ k t ar,
      Host.Core.run Sys2Proof.core k
        { s with cmdq := programWords (expandPseudo (.compress files)) } = .next t ∧
      t.mode = .idle ∧ t.fcode = .none ∧ t.cmdq = [] ∧ t.aout = s.aout ++ ar ∧
      ∀ u : State, Inv u → u.mode = .idle →
        ∃ j v,
          Host.Core.run Sys2Proof.core j
            { u with ain := ar, cmdq := programWords (expandPseudo (.decompress files.length)) } =
              .next v ∧
          v.mode = .idle ∧ v.fcode = .none ∧ v.cmdq = [] ∧
          v.dout = u.dout ++ files.flatMap (fun f => nameEvents f.1) ++ [⟨.hdrEnd, 0#8⟩] ++
            files.flatMap (fun f => fileEvents f.2)
end

