-- ==== Sys2Proof/Laws/State.lean ====
section
/-! SUPPORT. One lemma per field of State per named update, each true by rfl, and the values of the
parameters, so that no proof unfolds a record update. -/

namespace Sys2Proof.Machine

@[simp] theorem codeWidth_eq : Config.codeWidth = 12 := rfl
@[simp] theorem sentinel_eq : Config.sentinel = 4095 := rfl
@[simp] theorem numLiterals_eq : Config.numLiterals = 256 := rfl
@[simp] theorem firstDyn_eq : Config.firstDyn = 256 := rfl
@[simp] theorem lastDyn_eq : Config.lastDyn = 4094 := rfl
@[simp] theorem dynSlots_eq : Config.dynSlots = 3839 := rfl
@[simp] theorem maxMatchLen_eq : Config.maxMatchLen = 3840 := rfl
@[simp] theorem maxEntryLen_eq : Config.maxEntryLen = 3841 := rfl
@[simp] theorem countWidth_eq : Config.countWidth = 32 := rfl

/-- The formulas of R7. -/
theorem parameters_derived :
    Config.sentinel = 2 ^ Config.codeWidth - 1 ∧ Config.lastDyn = 2 ^ Config.codeWidth - 2 ∧
      Config.firstDyn = Config.numLiterals ∧ Config.dynSlots = Config.lastDyn - Config.firstDyn + 1 ∧
      Config.maxMatchLen = Config.dynSlots + 1 ∧ Config.maxEntryLen = Config.dynSlots + 2 := by
  decide

/-! ### aoutPut -/

@[simp] theorem aoutPut_mode (bs : Bytes) (s : State) : (aoutPut bs s).mode = s.mode := rfl
@[simp] theorem aoutPut_busy (bs : Bytes) (s : State) : (aoutPut bs s).busy = s.busy := rfl
@[simp] theorem aoutPut_nfiles (bs : Bytes) (s : State) : (aoutPut bs s).nfiles = s.nfiles := rfl
@[simp] theorem aoutPut_fidx (bs : Bytes) (s : State) : (aoutPut bs s).fidx = s.fidx := rfl
@[simp] theorem aoutPut_nameOpen (bs : Bytes) (s : State) : (aoutPut bs s).nameOpen = s.nameOpen := rfl
@[simp] theorem aoutPut_lineOpen (bs : Bytes) (s : State) : (aoutPut bs s).lineOpen = s.lineOpen := rfl
@[simp] theorem aoutPut_tailDrop (bs : Bytes) (s : State) : (aoutPut bs s).tailDrop = s.tailDrop := rfl
@[simp] theorem aoutPut_truncSent (bs : Bytes) (s : State) : (aoutPut bs s).truncSent = s.truncSent := rfl
@[simp] theorem aoutPut_fcode (bs : Bytes) (s : State) : (aoutPut bs s).fcode = s.fcode := rfl
@[simp] theorem aoutPut_fcmd (bs : Bytes) (s : State) : (aoutPut bs s).fcmd = s.fcmd := rfl
@[simp] theorem aoutPut_finfo (bs : Bytes) (s : State) : (aoutPut bs s).finfo = s.finfo := rfl
@[simp] theorem aoutPut_wbits (bs : Bytes) (s : State) : (aoutPut bs s).wbits = s.wbits := rfl
@[simp] theorem aoutPut_wcnt (bs : Bytes) (s : State) : (aoutPut bs s).wcnt = s.wcnt := rfl
@[simp] theorem aoutPut_rbits (bs : Bytes) (s : State) : (aoutPut bs s).rbits = s.rbits := rfl
@[simp] theorem aoutPut_rcnt (bs : Bytes) (s : State) : (aoutPut bs s).rcnt = s.rcnt := rfl
@[simp] theorem aoutPut_nextCode (bs : Bytes) (s : State) : (aoutPut bs s).nextCode = s.nextCode := rfl
@[simp] theorem aoutPut_entry (bs : Bytes) (s : State) : (aoutPut bs s).entry = s.entry := rfl
@[simp] theorem aoutPut_sbuf (bs : Bytes) (s : State) : (aoutPut bs s).sbuf = s.sbuf := rfl
@[simp] theorem aoutPut_curCode (bs : Bytes) (s : State) : (aoutPut bs s).curCode = s.curCode := rfl
@[simp] theorem aoutPut_curStr (bs : Bytes) (s : State) : (aoutPut bs s).curStr = s.curStr := rfl
@[simp] theorem aoutPut_dstate (bs : Bytes) (s : State) : (aoutPut bs s).dstate = s.dstate := rfl
@[simp] theorem aoutPut_aout (bs : Bytes) (s : State) : (aoutPut bs s).aout = s.aout ++ bs := rfl
@[simp] theorem aoutPut_ain (bs : Bytes) (s : State) : (aoutPut bs s).ain = s.ain := rfl
@[simp] theorem aoutPut_dout (bs : Bytes) (s : State) : (aoutPut bs s).dout = s.dout := rfl
@[simp] theorem aoutPut_cmdq (bs : Bytes) (s : State) : (aoutPut bs s).cmdq = s.cmdq := rfl
@[simp] theorem aoutPut_uopPort (bs : Bytes) (s : State) : (aoutPut bs s).uopPort = s.uopPort := rfl
@[simp] theorem aoutPut_strBus (bs : Bytes) (s : State) : (aoutPut bs s).strBus = s.strBus := rfl
@[simp] theorem aoutPut_uopRes (bs : Bytes) (s : State) : (aoutPut bs s).uopRes = s.uopRes := rfl

/-! ### doutPut -/

@[simp] theorem doutPut_mode (es : List DEvent) (s : State) : (doutPut es s).mode = s.mode := rfl
@[simp] theorem doutPut_busy (es : List DEvent) (s : State) : (doutPut es s).busy = s.busy := rfl
@[simp] theorem doutPut_nfiles (es : List DEvent) (s : State) : (doutPut es s).nfiles = s.nfiles := rfl
@[simp] theorem doutPut_fidx (es : List DEvent) (s : State) : (doutPut es s).fidx = s.fidx := rfl
@[simp] theorem doutPut_nameOpen (es : List DEvent) (s : State) : (doutPut es s).nameOpen = s.nameOpen := rfl
@[simp] theorem doutPut_lineOpen (es : List DEvent) (s : State) : (doutPut es s).lineOpen = s.lineOpen := rfl
@[simp] theorem doutPut_tailDrop (es : List DEvent) (s : State) : (doutPut es s).tailDrop = s.tailDrop := rfl
@[simp] theorem doutPut_truncSent (es : List DEvent) (s : State) : (doutPut es s).truncSent = s.truncSent := rfl
@[simp] theorem doutPut_fcode (es : List DEvent) (s : State) : (doutPut es s).fcode = s.fcode := rfl
@[simp] theorem doutPut_fcmd (es : List DEvent) (s : State) : (doutPut es s).fcmd = s.fcmd := rfl
@[simp] theorem doutPut_finfo (es : List DEvent) (s : State) : (doutPut es s).finfo = s.finfo := rfl
@[simp] theorem doutPut_wbits (es : List DEvent) (s : State) : (doutPut es s).wbits = s.wbits := rfl
@[simp] theorem doutPut_wcnt (es : List DEvent) (s : State) : (doutPut es s).wcnt = s.wcnt := rfl
@[simp] theorem doutPut_rbits (es : List DEvent) (s : State) : (doutPut es s).rbits = s.rbits := rfl
@[simp] theorem doutPut_rcnt (es : List DEvent) (s : State) : (doutPut es s).rcnt = s.rcnt := rfl
@[simp] theorem doutPut_nextCode (es : List DEvent) (s : State) : (doutPut es s).nextCode = s.nextCode := rfl
@[simp] theorem doutPut_entry (es : List DEvent) (s : State) : (doutPut es s).entry = s.entry := rfl
@[simp] theorem doutPut_sbuf (es : List DEvent) (s : State) : (doutPut es s).sbuf = s.sbuf := rfl
@[simp] theorem doutPut_curCode (es : List DEvent) (s : State) : (doutPut es s).curCode = s.curCode := rfl
@[simp] theorem doutPut_curStr (es : List DEvent) (s : State) : (doutPut es s).curStr = s.curStr := rfl
@[simp] theorem doutPut_dstate (es : List DEvent) (s : State) : (doutPut es s).dstate = s.dstate := rfl
@[simp] theorem doutPut_aout (es : List DEvent) (s : State) : (doutPut es s).aout = s.aout := rfl
@[simp] theorem doutPut_ain (es : List DEvent) (s : State) : (doutPut es s).ain = s.ain := rfl
@[simp] theorem doutPut_dout (es : List DEvent) (s : State) : (doutPut es s).dout = s.dout ++ es := rfl
@[simp] theorem doutPut_cmdq (es : List DEvent) (s : State) : (doutPut es s).cmdq = s.cmdq := rfl
@[simp] theorem doutPut_uopPort (es : List DEvent) (s : State) : (doutPut es s).uopPort = s.uopPort := rfl
@[simp] theorem doutPut_strBus (es : List DEvent) (s : State) : (doutPut es s).strBus = s.strBus := rfl
@[simp] theorem doutPut_uopRes (es : List DEvent) (s : State) : (doutPut es s).uopRes = s.uopRes := rfl

/-! ### raise -/

@[simp] theorem raise_mode (f : FCode) (w : Word) (j : FInfo) (s : State) : (raise f w j s).mode = .fault := rfl
@[simp] theorem raise_busy (f : FCode) (w : Word) (j : FInfo) (s : State) : (raise f w j s).busy = false := rfl
@[simp] theorem raise_nfiles (f : FCode) (w : Word) (j : FInfo) (s : State) : (raise f w j s).nfiles = s.nfiles := rfl
@[simp] theorem raise_fidx (f : FCode) (w : Word) (j : FInfo) (s : State) : (raise f w j s).fidx = s.fidx := rfl
@[simp] theorem raise_nameOpen (f : FCode) (w : Word) (j : FInfo) (s : State) : (raise f w j s).nameOpen = s.nameOpen := rfl
@[simp] theorem raise_lineOpen (f : FCode) (w : Word) (j : FInfo) (s : State) : (raise f w j s).lineOpen = s.lineOpen := rfl
@[simp] theorem raise_tailDrop (f : FCode) (w : Word) (j : FInfo) (s : State) : (raise f w j s).tailDrop = s.tailDrop := rfl
@[simp] theorem raise_truncSent (f : FCode) (w : Word) (j : FInfo) (s : State) : (raise f w j s).truncSent = s.truncSent := rfl
@[simp] theorem raise_fcode (f : FCode) (w : Word) (j : FInfo) (s : State) : (raise f w j s).fcode = f := rfl
@[simp] theorem raise_fcmd (f : FCode) (w : Word) (j : FInfo) (s : State) : (raise f w j s).fcmd = w := rfl
@[simp] theorem raise_finfo (f : FCode) (w : Word) (j : FInfo) (s : State) : (raise f w j s).finfo = j := rfl
@[simp] theorem raise_wbits (f : FCode) (w : Word) (j : FInfo) (s : State) : (raise f w j s).wbits = s.wbits := rfl
@[simp] theorem raise_wcnt (f : FCode) (w : Word) (j : FInfo) (s : State) : (raise f w j s).wcnt = s.wcnt := rfl
@[simp] theorem raise_rbits (f : FCode) (w : Word) (j : FInfo) (s : State) : (raise f w j s).rbits = s.rbits := rfl
@[simp] theorem raise_rcnt (f : FCode) (w : Word) (j : FInfo) (s : State) : (raise f w j s).rcnt = s.rcnt := rfl
@[simp] theorem raise_nextCode (f : FCode) (w : Word) (j : FInfo) (s : State) : (raise f w j s).nextCode = s.nextCode := rfl
@[simp] theorem raise_entry (f : FCode) (w : Word) (j : FInfo) (s : State) : (raise f w j s).entry = s.entry := rfl
@[simp] theorem raise_sbuf (f : FCode) (w : Word) (j : FInfo) (s : State) : (raise f w j s).sbuf = s.sbuf := rfl
@[simp] theorem raise_curCode (f : FCode) (w : Word) (j : FInfo) (s : State) : (raise f w j s).curCode = s.curCode := rfl
@[simp] theorem raise_curStr (f : FCode) (w : Word) (j : FInfo) (s : State) : (raise f w j s).curStr = s.curStr := rfl
@[simp] theorem raise_dstate (f : FCode) (w : Word) (j : FInfo) (s : State) : (raise f w j s).dstate = s.dstate := rfl
@[simp] theorem raise_aout (f : FCode) (w : Word) (j : FInfo) (s : State) : (raise f w j s).aout = s.aout := rfl
@[simp] theorem raise_ain (f : FCode) (w : Word) (j : FInfo) (s : State) : (raise f w j s).ain = s.ain := rfl
@[simp] theorem raise_dout (f : FCode) (w : Word) (j : FInfo) (s : State) : (raise f w j s).dout = s.dout := rfl
@[simp] theorem raise_cmdq (f : FCode) (w : Word) (j : FInfo) (s : State) : (raise f w j s).cmdq = s.cmdq := rfl
@[simp] theorem raise_uopPort (f : FCode) (w : Word) (j : FInfo) (s : State) : (raise f w j s).uopPort = s.uopPort := rfl
@[simp] theorem raise_strBus (f : FCode) (w : Word) (j : FInfo) (s : State) : (raise f w j s).strBus = s.strBus := rfl
@[simp] theorem raise_uopRes (f : FCode) (w : Word) (j : FInfo) (s : State) : (raise f w j s).uopRes = s.uopRes := rfl

/-! ### resetRegisters -/

@[simp] theorem resetRegisters_mode (s : State) : (resetRegisters s).mode = .idle := rfl
@[simp] theorem resetRegisters_busy (s : State) : (resetRegisters s).busy = false := rfl
@[simp] theorem resetRegisters_nfiles (s : State) : (resetRegisters s).nfiles = 0#32 := rfl
@[simp] theorem resetRegisters_fidx (s : State) : (resetRegisters s).fidx = 0#32 := rfl
@[simp] theorem resetRegisters_nameOpen (s : State) : (resetRegisters s).nameOpen = false := rfl
@[simp] theorem resetRegisters_lineOpen (s : State) : (resetRegisters s).lineOpen = false := rfl
@[simp] theorem resetRegisters_tailDrop (s : State) : (resetRegisters s).tailDrop = false := rfl
@[simp] theorem resetRegisters_truncSent (s : State) : (resetRegisters s).truncSent = false := rfl
@[simp] theorem resetRegisters_fcode (s : State) : (resetRegisters s).fcode = .none := rfl
@[simp] theorem resetRegisters_fcmd (s : State) : (resetRegisters s).fcmd = 0#32 := rfl
@[simp] theorem resetRegisters_finfo (s : State) : (resetRegisters s).finfo = FInfo.zero := rfl
@[simp] theorem resetRegisters_wbits (s : State) : (resetRegisters s).wbits = 0#7 := rfl
@[simp] theorem resetRegisters_wcnt (s : State) : (resetRegisters s).wcnt = 0#3 := rfl
@[simp] theorem resetRegisters_rbits (s : State) : (resetRegisters s).rbits = 0#12 := rfl
@[simp] theorem resetRegisters_rcnt (s : State) : (resetRegisters s).rcnt = 0#4 := rfl
@[simp] theorem resetRegisters_nextCode (s : State) : (resetRegisters s).nextCode = 256#12 := rfl
@[simp] theorem resetRegisters_entry (s : State) : (resetRegisters s).entry = s.entry := rfl
@[simp] theorem resetRegisters_sbuf (s : State) : (resetRegisters s).sbuf = [] := rfl
@[simp] theorem resetRegisters_curCode (s : State) : (resetRegisters s).curCode = 0#12 := rfl
@[simp] theorem resetRegisters_curStr (s : State) : (resetRegisters s).curStr = [] := rfl
@[simp] theorem resetRegisters_dstate (s : State) : (resetRegisters s).dstate = .first := rfl
@[simp] theorem resetRegisters_aout (s : State) : (resetRegisters s).aout = s.aout := rfl
@[simp] theorem resetRegisters_ain (s : State) : (resetRegisters s).ain = s.ain := rfl
@[simp] theorem resetRegisters_dout (s : State) : (resetRegisters s).dout = s.dout := rfl
@[simp] theorem resetRegisters_cmdq (s : State) : (resetRegisters s).cmdq = s.cmdq := rfl
@[simp] theorem resetRegisters_uopPort (s : State) : (resetRegisters s).uopPort = s.uopPort := rfl
@[simp] theorem resetRegisters_strBus (s : State) : (resetRegisters s).strBus = s.strBus := rfl
@[simp] theorem resetRegisters_uopRes (s : State) : (resetRegisters s).uopRes = s.uopRes := rfl

/-! ### bcWclr -/

@[simp] theorem bcWclr_mode (s : State) : (bcWclr s).mode = s.mode := rfl
@[simp] theorem bcWclr_busy (s : State) : (bcWclr s).busy = s.busy := rfl
@[simp] theorem bcWclr_nfiles (s : State) : (bcWclr s).nfiles = s.nfiles := rfl
@[simp] theorem bcWclr_fidx (s : State) : (bcWclr s).fidx = s.fidx := rfl
@[simp] theorem bcWclr_nameOpen (s : State) : (bcWclr s).nameOpen = s.nameOpen := rfl
@[simp] theorem bcWclr_lineOpen (s : State) : (bcWclr s).lineOpen = s.lineOpen := rfl
@[simp] theorem bcWclr_tailDrop (s : State) : (bcWclr s).tailDrop = s.tailDrop := rfl
@[simp] theorem bcWclr_truncSent (s : State) : (bcWclr s).truncSent = s.truncSent := rfl
@[simp] theorem bcWclr_fcode (s : State) : (bcWclr s).fcode = s.fcode := rfl
@[simp] theorem bcWclr_fcmd (s : State) : (bcWclr s).fcmd = s.fcmd := rfl
@[simp] theorem bcWclr_finfo (s : State) : (bcWclr s).finfo = s.finfo := rfl
@[simp] theorem bcWclr_wbits (s : State) : (bcWclr s).wbits = 0#7 := rfl
@[simp] theorem bcWclr_wcnt (s : State) : (bcWclr s).wcnt = 0#3 := rfl
@[simp] theorem bcWclr_rbits (s : State) : (bcWclr s).rbits = s.rbits := rfl
@[simp] theorem bcWclr_rcnt (s : State) : (bcWclr s).rcnt = s.rcnt := rfl
@[simp] theorem bcWclr_nextCode (s : State) : (bcWclr s).nextCode = s.nextCode := rfl
@[simp] theorem bcWclr_entry (s : State) : (bcWclr s).entry = s.entry := rfl
@[simp] theorem bcWclr_sbuf (s : State) : (bcWclr s).sbuf = s.sbuf := rfl
@[simp] theorem bcWclr_curCode (s : State) : (bcWclr s).curCode = s.curCode := rfl
@[simp] theorem bcWclr_curStr (s : State) : (bcWclr s).curStr = s.curStr := rfl
@[simp] theorem bcWclr_dstate (s : State) : (bcWclr s).dstate = s.dstate := rfl
@[simp] theorem bcWclr_aout (s : State) : (bcWclr s).aout = s.aout := rfl
@[simp] theorem bcWclr_ain (s : State) : (bcWclr s).ain = s.ain := rfl
@[simp] theorem bcWclr_dout (s : State) : (bcWclr s).dout = s.dout := rfl
@[simp] theorem bcWclr_cmdq (s : State) : (bcWclr s).cmdq = s.cmdq := rfl
@[simp] theorem bcWclr_uopPort (s : State) : (bcWclr s).uopPort = s.uopPort := rfl
@[simp] theorem bcWclr_strBus (s : State) : (bcWclr s).strBus = s.strBus := rfl
@[simp] theorem bcWclr_uopRes (s : State) : (bcWclr s).uopRes = s.uopRes := rfl

/-! ### bcRclr -/

@[simp] theorem bcRclr_mode (s : State) : (bcRclr s).mode = s.mode := rfl
@[simp] theorem bcRclr_busy (s : State) : (bcRclr s).busy = s.busy := rfl
@[simp] theorem bcRclr_nfiles (s : State) : (bcRclr s).nfiles = s.nfiles := rfl
@[simp] theorem bcRclr_fidx (s : State) : (bcRclr s).fidx = s.fidx := rfl
@[simp] theorem bcRclr_nameOpen (s : State) : (bcRclr s).nameOpen = s.nameOpen := rfl
@[simp] theorem bcRclr_lineOpen (s : State) : (bcRclr s).lineOpen = s.lineOpen := rfl
@[simp] theorem bcRclr_tailDrop (s : State) : (bcRclr s).tailDrop = s.tailDrop := rfl
@[simp] theorem bcRclr_truncSent (s : State) : (bcRclr s).truncSent = s.truncSent := rfl
@[simp] theorem bcRclr_fcode (s : State) : (bcRclr s).fcode = s.fcode := rfl
@[simp] theorem bcRclr_fcmd (s : State) : (bcRclr s).fcmd = s.fcmd := rfl
@[simp] theorem bcRclr_finfo (s : State) : (bcRclr s).finfo = s.finfo := rfl
@[simp] theorem bcRclr_wbits (s : State) : (bcRclr s).wbits = s.wbits := rfl
@[simp] theorem bcRclr_wcnt (s : State) : (bcRclr s).wcnt = s.wcnt := rfl
@[simp] theorem bcRclr_rbits (s : State) : (bcRclr s).rbits = 0#12 := rfl
@[simp] theorem bcRclr_rcnt (s : State) : (bcRclr s).rcnt = 0#4 := rfl
@[simp] theorem bcRclr_nextCode (s : State) : (bcRclr s).nextCode = s.nextCode := rfl
@[simp] theorem bcRclr_entry (s : State) : (bcRclr s).entry = s.entry := rfl
@[simp] theorem bcRclr_sbuf (s : State) : (bcRclr s).sbuf = s.sbuf := rfl
@[simp] theorem bcRclr_curCode (s : State) : (bcRclr s).curCode = s.curCode := rfl
@[simp] theorem bcRclr_curStr (s : State) : (bcRclr s).curStr = s.curStr := rfl
@[simp] theorem bcRclr_dstate (s : State) : (bcRclr s).dstate = s.dstate := rfl
@[simp] theorem bcRclr_aout (s : State) : (bcRclr s).aout = s.aout := rfl
@[simp] theorem bcRclr_ain (s : State) : (bcRclr s).ain = s.ain := rfl
@[simp] theorem bcRclr_dout (s : State) : (bcRclr s).dout = s.dout := rfl
@[simp] theorem bcRclr_cmdq (s : State) : (bcRclr s).cmdq = s.cmdq := rfl
@[simp] theorem bcRclr_uopPort (s : State) : (bcRclr s).uopPort = s.uopPort := rfl
@[simp] theorem bcRclr_strBus (s : State) : (bcRclr s).strBus = s.strBus := rfl
@[simp] theorem bcRclr_uopRes (s : State) : (bcRclr s).uopRes = s.uopRes := rfl

/-! ### dictReset -/

@[simp] theorem dictReset_mode (s : State) : (dictReset s).mode = s.mode := rfl
@[simp] theorem dictReset_busy (s : State) : (dictReset s).busy = s.busy := rfl
@[simp] theorem dictReset_nfiles (s : State) : (dictReset s).nfiles = s.nfiles := rfl
@[simp] theorem dictReset_fidx (s : State) : (dictReset s).fidx = s.fidx := rfl
@[simp] theorem dictReset_nameOpen (s : State) : (dictReset s).nameOpen = s.nameOpen := rfl
@[simp] theorem dictReset_lineOpen (s : State) : (dictReset s).lineOpen = s.lineOpen := rfl
@[simp] theorem dictReset_tailDrop (s : State) : (dictReset s).tailDrop = s.tailDrop := rfl
@[simp] theorem dictReset_truncSent (s : State) : (dictReset s).truncSent = s.truncSent := rfl
@[simp] theorem dictReset_fcode (s : State) : (dictReset s).fcode = s.fcode := rfl
@[simp] theorem dictReset_fcmd (s : State) : (dictReset s).fcmd = s.fcmd := rfl
@[simp] theorem dictReset_finfo (s : State) : (dictReset s).finfo = s.finfo := rfl
@[simp] theorem dictReset_wbits (s : State) : (dictReset s).wbits = s.wbits := rfl
@[simp] theorem dictReset_wcnt (s : State) : (dictReset s).wcnt = s.wcnt := rfl
@[simp] theorem dictReset_rbits (s : State) : (dictReset s).rbits = s.rbits := rfl
@[simp] theorem dictReset_rcnt (s : State) : (dictReset s).rcnt = s.rcnt := rfl
@[simp] theorem dictReset_nextCode (s : State) : (dictReset s).nextCode = 256#12 := rfl
@[simp] theorem dictReset_entry (s : State) : (dictReset s).entry = s.entry := rfl
@[simp] theorem dictReset_sbuf (s : State) : (dictReset s).sbuf = s.sbuf := rfl
@[simp] theorem dictReset_curCode (s : State) : (dictReset s).curCode = s.curCode := rfl
@[simp] theorem dictReset_curStr (s : State) : (dictReset s).curStr = s.curStr := rfl
@[simp] theorem dictReset_dstate (s : State) : (dictReset s).dstate = s.dstate := rfl
@[simp] theorem dictReset_aout (s : State) : (dictReset s).aout = s.aout := rfl
@[simp] theorem dictReset_ain (s : State) : (dictReset s).ain = s.ain := rfl
@[simp] theorem dictReset_dout (s : State) : (dictReset s).dout = s.dout := rfl
@[simp] theorem dictReset_cmdq (s : State) : (dictReset s).cmdq = s.cmdq := rfl
@[simp] theorem dictReset_uopPort (s : State) : (dictReset s).uopPort = s.uopPort := rfl
@[simp] theorem dictReset_strBus (s : State) : (dictReset s).strBus = s.strBus := rfl
@[simp] theorem dictReset_uopRes (s : State) : (dictReset s).uopRes = s.uopRes := rfl

/-! ### setCurrent -/

@[simp] theorem setCurrent_mode (r : Code) (x : Bytes) (s : State) : (setCurrent r x s).mode = s.mode := rfl
@[simp] theorem setCurrent_busy (r : Code) (x : Bytes) (s : State) : (setCurrent r x s).busy = s.busy := rfl
@[simp] theorem setCurrent_nfiles (r : Code) (x : Bytes) (s : State) : (setCurrent r x s).nfiles = s.nfiles := rfl
@[simp] theorem setCurrent_fidx (r : Code) (x : Bytes) (s : State) : (setCurrent r x s).fidx = s.fidx := rfl
@[simp] theorem setCurrent_nameOpen (r : Code) (x : Bytes) (s : State) : (setCurrent r x s).nameOpen = s.nameOpen := rfl
@[simp] theorem setCurrent_lineOpen (r : Code) (x : Bytes) (s : State) : (setCurrent r x s).lineOpen = s.lineOpen := rfl
@[simp] theorem setCurrent_tailDrop (r : Code) (x : Bytes) (s : State) : (setCurrent r x s).tailDrop = s.tailDrop := rfl
@[simp] theorem setCurrent_truncSent (r : Code) (x : Bytes) (s : State) : (setCurrent r x s).truncSent = s.truncSent := rfl
@[simp] theorem setCurrent_fcode (r : Code) (x : Bytes) (s : State) : (setCurrent r x s).fcode = s.fcode := rfl
@[simp] theorem setCurrent_fcmd (r : Code) (x : Bytes) (s : State) : (setCurrent r x s).fcmd = s.fcmd := rfl
@[simp] theorem setCurrent_finfo (r : Code) (x : Bytes) (s : State) : (setCurrent r x s).finfo = s.finfo := rfl
@[simp] theorem setCurrent_wbits (r : Code) (x : Bytes) (s : State) : (setCurrent r x s).wbits = s.wbits := rfl
@[simp] theorem setCurrent_wcnt (r : Code) (x : Bytes) (s : State) : (setCurrent r x s).wcnt = s.wcnt := rfl
@[simp] theorem setCurrent_rbits (r : Code) (x : Bytes) (s : State) : (setCurrent r x s).rbits = s.rbits := rfl
@[simp] theorem setCurrent_rcnt (r : Code) (x : Bytes) (s : State) : (setCurrent r x s).rcnt = s.rcnt := rfl
@[simp] theorem setCurrent_nextCode (r : Code) (x : Bytes) (s : State) : (setCurrent r x s).nextCode = s.nextCode := rfl
@[simp] theorem setCurrent_entry (r : Code) (x : Bytes) (s : State) : (setCurrent r x s).entry = s.entry := rfl
@[simp] theorem setCurrent_sbuf (r : Code) (x : Bytes) (s : State) : (setCurrent r x s).sbuf = s.sbuf := rfl
@[simp] theorem setCurrent_curCode (r : Code) (x : Bytes) (s : State) : (setCurrent r x s).curCode = r := rfl
@[simp] theorem setCurrent_curStr (r : Code) (x : Bytes) (s : State) : (setCurrent r x s).curStr = x := rfl
@[simp] theorem setCurrent_dstate (r : Code) (x : Bytes) (s : State) : (setCurrent r x s).dstate = .emit := rfl
@[simp] theorem setCurrent_aout (r : Code) (x : Bytes) (s : State) : (setCurrent r x s).aout = s.aout := rfl
@[simp] theorem setCurrent_ain (r : Code) (x : Bytes) (s : State) : (setCurrent r x s).ain = s.ain := rfl
@[simp] theorem setCurrent_dout (r : Code) (x : Bytes) (s : State) : (setCurrent r x s).dout = s.dout := rfl
@[simp] theorem setCurrent_cmdq (r : Code) (x : Bytes) (s : State) : (setCurrent r x s).cmdq = s.cmdq := rfl
@[simp] theorem setCurrent_uopPort (r : Code) (x : Bytes) (s : State) : (setCurrent r x s).uopPort = s.uopPort := rfl
@[simp] theorem setCurrent_strBus (r : Code) (x : Bytes) (s : State) : (setCurrent r x s).strBus = s.strBus := rfl
@[simp] theorem setCurrent_uopRes (r : Code) (x : Bytes) (s : State) : (setCurrent r x s).uopRes = s.uopRes := rfl

/-! ### dsEmit -/

@[simp] theorem dsEmit_mode (s : State) : (dsEmit s).mode = s.mode := rfl
@[simp] theorem dsEmit_busy (s : State) : (dsEmit s).busy = s.busy := rfl
@[simp] theorem dsEmit_nfiles (s : State) : (dsEmit s).nfiles = s.nfiles := rfl
@[simp] theorem dsEmit_fidx (s : State) : (dsEmit s).fidx = s.fidx := rfl
@[simp] theorem dsEmit_nameOpen (s : State) : (dsEmit s).nameOpen = s.nameOpen := rfl
@[simp] theorem dsEmit_lineOpen (s : State) : (dsEmit s).lineOpen = s.lineOpen := rfl
@[simp] theorem dsEmit_tailDrop (s : State) : (dsEmit s).tailDrop = s.tailDrop := rfl
@[simp] theorem dsEmit_truncSent (s : State) : (dsEmit s).truncSent = s.truncSent := rfl
@[simp] theorem dsEmit_fcode (s : State) : (dsEmit s).fcode = s.fcode := rfl
@[simp] theorem dsEmit_fcmd (s : State) : (dsEmit s).fcmd = s.fcmd := rfl
@[simp] theorem dsEmit_finfo (s : State) : (dsEmit s).finfo = s.finfo := rfl
@[simp] theorem dsEmit_wbits (s : State) : (dsEmit s).wbits = s.wbits := rfl
@[simp] theorem dsEmit_wcnt (s : State) : (dsEmit s).wcnt = s.wcnt := rfl
@[simp] theorem dsEmit_rbits (s : State) : (dsEmit s).rbits = s.rbits := rfl
@[simp] theorem dsEmit_rcnt (s : State) : (dsEmit s).rcnt = s.rcnt := rfl
@[simp] theorem dsEmit_nextCode (s : State) : (dsEmit s).nextCode = s.nextCode := rfl
@[simp] theorem dsEmit_entry (s : State) : (dsEmit s).entry = s.entry := rfl
@[simp] theorem dsEmit_sbuf (s : State) : (dsEmit s).sbuf = s.sbuf := rfl
@[simp] theorem dsEmit_curCode (s : State) : (dsEmit s).curCode = s.curCode := rfl
@[simp] theorem dsEmit_curStr (s : State) : (dsEmit s).curStr = s.curStr := rfl
@[simp] theorem dsEmit_dstate (s : State) : (dsEmit s).dstate = .next := rfl
@[simp] theorem dsEmit_aout (s : State) : (dsEmit s).aout = s.aout := rfl
@[simp] theorem dsEmit_ain (s : State) : (dsEmit s).ain = s.ain := rfl
@[simp] theorem dsEmit_dout (s : State) : (dsEmit s).dout = s.dout ++ s.curStr.map fun b => ⟨.data, b⟩ := rfl
@[simp] theorem dsEmit_cmdq (s : State) : (dsEmit s).cmdq = s.cmdq := rfl
@[simp] theorem dsEmit_uopPort (s : State) : (dsEmit s).uopPort = s.uopPort := rfl
@[simp] theorem dsEmit_strBus (s : State) : (dsEmit s).strBus = s.strBus := rfl
@[simp] theorem dsEmit_uopRes (s : State) : (dsEmit s).uopRes = s.uopRes := rfl

/-! ### segEnd -/

@[simp] theorem segEnd_mode (s : State) : (segEnd s).mode = .dbody := rfl
@[simp] theorem segEnd_busy (s : State) : (segEnd s).busy = false := rfl
@[simp] theorem segEnd_nfiles (s : State) : (segEnd s).nfiles = s.nfiles := rfl
@[simp] theorem segEnd_fidx (s : State) : (segEnd s).fidx = s.fidx + 1 := rfl
@[simp] theorem segEnd_nameOpen (s : State) : (segEnd s).nameOpen = s.nameOpen := rfl
@[simp] theorem segEnd_lineOpen (s : State) : (segEnd s).lineOpen = s.lineOpen := rfl
@[simp] theorem segEnd_tailDrop (s : State) : (segEnd s).tailDrop = s.tailDrop := rfl
@[simp] theorem segEnd_truncSent (s : State) : (segEnd s).truncSent = s.truncSent := rfl
@[simp] theorem segEnd_fcode (s : State) : (segEnd s).fcode = s.fcode := rfl
@[simp] theorem segEnd_fcmd (s : State) : (segEnd s).fcmd = s.fcmd := rfl
@[simp] theorem segEnd_finfo (s : State) : (segEnd s).finfo = s.finfo := rfl
@[simp] theorem segEnd_wbits (s : State) : (segEnd s).wbits = s.wbits := rfl
@[simp] theorem segEnd_wcnt (s : State) : (segEnd s).wcnt = s.wcnt := rfl
@[simp] theorem segEnd_rbits (s : State) : (segEnd s).rbits = s.rbits := rfl
@[simp] theorem segEnd_rcnt (s : State) : (segEnd s).rcnt = s.rcnt := rfl
@[simp] theorem segEnd_nextCode (s : State) : (segEnd s).nextCode = s.nextCode := rfl
@[simp] theorem segEnd_entry (s : State) : (segEnd s).entry = s.entry := rfl
@[simp] theorem segEnd_sbuf (s : State) : (segEnd s).sbuf = s.sbuf := rfl
@[simp] theorem segEnd_curCode (s : State) : (segEnd s).curCode = s.curCode := rfl
@[simp] theorem segEnd_curStr (s : State) : (segEnd s).curStr = s.curStr := rfl
@[simp] theorem segEnd_dstate (s : State) : (segEnd s).dstate = .first := rfl
@[simp] theorem segEnd_aout (s : State) : (segEnd s).aout = s.aout := rfl
@[simp] theorem segEnd_ain (s : State) : (segEnd s).ain = s.ain := rfl
@[simp] theorem segEnd_dout (s : State) : (segEnd s).dout = s.dout ++ [⟨.fileEnd, 0⟩] := rfl
@[simp] theorem segEnd_cmdq (s : State) : (segEnd s).cmdq = s.cmdq := rfl
@[simp] theorem segEnd_uopPort (s : State) : (segEnd s).uopPort = s.uopPort := rfl
@[simp] theorem segEnd_strBus (s : State) : (segEnd s).strBus = s.strBus := rfl
@[simp] theorem segEnd_uopRes (s : State) : (segEnd s).uopRes = s.uopRes := rfl

/-! ### bcWrite -/

@[simp] theorem bcWrite_mode (c : Code) (s : State) : (bcWrite c s).mode = s.mode := rfl
@[simp] theorem bcWrite_busy (c : Code) (s : State) : (bcWrite c s).busy = s.busy := rfl
@[simp] theorem bcWrite_nfiles (c : Code) (s : State) : (bcWrite c s).nfiles = s.nfiles := rfl
@[simp] theorem bcWrite_fidx (c : Code) (s : State) : (bcWrite c s).fidx = s.fidx := rfl
@[simp] theorem bcWrite_nameOpen (c : Code) (s : State) : (bcWrite c s).nameOpen = s.nameOpen := rfl
@[simp] theorem bcWrite_lineOpen (c : Code) (s : State) : (bcWrite c s).lineOpen = s.lineOpen := rfl
@[simp] theorem bcWrite_tailDrop (c : Code) (s : State) : (bcWrite c s).tailDrop = s.tailDrop := rfl
@[simp] theorem bcWrite_truncSent (c : Code) (s : State) : (bcWrite c s).truncSent = s.truncSent := rfl
@[simp] theorem bcWrite_fcode (c : Code) (s : State) : (bcWrite c s).fcode = s.fcode := rfl
@[simp] theorem bcWrite_fcmd (c : Code) (s : State) : (bcWrite c s).fcmd = s.fcmd := rfl
@[simp] theorem bcWrite_finfo (c : Code) (s : State) : (bcWrite c s).finfo = s.finfo := rfl
@[simp] theorem bcWrite_rbits (c : Code) (s : State) : (bcWrite c s).rbits = s.rbits := rfl
@[simp] theorem bcWrite_rcnt (c : Code) (s : State) : (bcWrite c s).rcnt = s.rcnt := rfl
@[simp] theorem bcWrite_nextCode (c : Code) (s : State) : (bcWrite c s).nextCode = s.nextCode := rfl
@[simp] theorem bcWrite_entry (c : Code) (s : State) : (bcWrite c s).entry = s.entry := rfl
@[simp] theorem bcWrite_sbuf (c : Code) (s : State) : (bcWrite c s).sbuf = s.sbuf := rfl
@[simp] theorem bcWrite_curCode (c : Code) (s : State) : (bcWrite c s).curCode = s.curCode := rfl
@[simp] theorem bcWrite_curStr (c : Code) (s : State) : (bcWrite c s).curStr = s.curStr := rfl
@[simp] theorem bcWrite_dstate (c : Code) (s : State) : (bcWrite c s).dstate = s.dstate := rfl
@[simp] theorem bcWrite_ain (c : Code) (s : State) : (bcWrite c s).ain = s.ain := rfl
@[simp] theorem bcWrite_dout (c : Code) (s : State) : (bcWrite c s).dout = s.dout := rfl
@[simp] theorem bcWrite_cmdq (c : Code) (s : State) : (bcWrite c s).cmdq = s.cmdq := rfl
@[simp] theorem bcWrite_uopPort (c : Code) (s : State) : (bcWrite c s).uopPort = s.uopPort := rfl
@[simp] theorem bcWrite_strBus (c : Code) (s : State) : (bcWrite c s).strBus = s.strBus := rfl
@[simp] theorem bcWrite_uopRes (c : Code) (s : State) : (bcWrite c s).uopRes = s.uopRes := rfl

/-! ### closeSegment -/

@[simp] theorem closeSegment_mode (s : State) : (closeSegment s).mode = .cbody := rfl
@[simp] theorem closeSegment_busy (s : State) : (closeSegment s).busy = s.busy := rfl
@[simp] theorem closeSegment_nfiles (s : State) : (closeSegment s).nfiles = s.nfiles := rfl
@[simp] theorem closeSegment_fidx (s : State) : (closeSegment s).fidx = s.fidx + 1 := rfl
@[simp] theorem closeSegment_nameOpen (s : State) : (closeSegment s).nameOpen = s.nameOpen := rfl
@[simp] theorem closeSegment_lineOpen (s : State) : (closeSegment s).lineOpen = s.lineOpen := rfl
@[simp] theorem closeSegment_tailDrop (s : State) : (closeSegment s).tailDrop = s.tailDrop := rfl
@[simp] theorem closeSegment_truncSent (s : State) : (closeSegment s).truncSent = s.truncSent := rfl
@[simp] theorem closeSegment_fcode (s : State) : (closeSegment s).fcode = s.fcode := rfl
@[simp] theorem closeSegment_fcmd (s : State) : (closeSegment s).fcmd = s.fcmd := rfl
@[simp] theorem closeSegment_finfo (s : State) : (closeSegment s).finfo = s.finfo := rfl
@[simp] theorem closeSegment_rbits (s : State) : (closeSegment s).rbits = s.rbits := rfl
@[simp] theorem closeSegment_rcnt (s : State) : (closeSegment s).rcnt = s.rcnt := rfl
@[simp] theorem closeSegment_nextCode (s : State) : (closeSegment s).nextCode = s.nextCode := rfl
@[simp] theorem closeSegment_entry (s : State) : (closeSegment s).entry = s.entry := rfl
@[simp] theorem closeSegment_sbuf (s : State) : (closeSegment s).sbuf = [] := rfl
@[simp] theorem closeSegment_curCode (s : State) : (closeSegment s).curCode = s.curCode := rfl
@[simp] theorem closeSegment_curStr (s : State) : (closeSegment s).curStr = s.curStr := rfl
@[simp] theorem closeSegment_dstate (s : State) : (closeSegment s).dstate = s.dstate := rfl
@[simp] theorem closeSegment_ain (s : State) : (closeSegment s).ain = s.ain := rfl
@[simp] theorem closeSegment_dout (s : State) : (closeSegment s).dout = s.dout := rfl
@[simp] theorem closeSegment_cmdq (s : State) : (closeSegment s).cmdq = s.cmdq := rfl
@[simp] theorem closeSegment_uopPort (s : State) : (closeSegment s).uopPort = s.uopPort := rfl
@[simp] theorem closeSegment_strBus (s : State) : (closeSegment s).strBus = s.strBus := rfl
@[simp] theorem closeSegment_uopRes (s : State) : (closeSegment s).uopRes = s.uopRes := rfl

end Sys2Proof.Machine
end

