-- ==== Sys2Proof/Laws/BitCodec.lean ====
section
/-! SUPPORT. What BitCodec's operations can do: the registers they touch and the counts they leave. -/

namespace Sys2Proof.Machine

/-- BC_WRITE adds 12 bits and emits whole bytes: the count left is (WCNT + 12) mod 8 (R64). -/
theorem bcWrite_wcnt (c : Code) (s : State) :
    (bcWrite c s).wcnt.toNat = (s.wcnt.toNat + 12) % 8 := by
  show (BitVec.ofNat 3 ((s.wcnt.toNat + 12) % 8)).toNat = _
  rw [BitVec.toNat_ofNat, Nat.mod_eq_of_lt (by omega)]

/-- After BC_WRITE the bits of WBITS at or above WCNT are 0 (R21). -/
theorem bcWrite_wbits_lt (c : Code) (s : State) :
    (bcWrite c s).wbits.toNat < 2 ^ (bcWrite c s).wcnt.toNat := by
  rw [bcWrite_wcnt]
  show (BitVec.ofNat 7 ((s.wbits.toNat * 2 ^ 12 + c.toNat) % 2 ^ ((s.wcnt.toNat + 12) % 8))).toNat < _
  rw [BitVec.toNat_ofNat]
  exact Nat.lt_of_le_of_lt (Nat.mod_le _ _) (Nat.mod_lt _ (Nat.two_pow_pos _))

/-- BC_WRITE appends to AOUT. -/
theorem bcWrite_aout (c : Code) (s : State) : ∃ out, (bcWrite c s).aout = s.aout ++ out := ⟨_, rfl⟩

theorem pullBytes_nil (acc n : Nat) : pullBytes acc n [] = (acc, n, []) := rfl

theorem pullBytes_full {acc n : Nat} (h : 12 ≤ n) (bs : Bytes) : pullBytes acc n bs = (acc, n, bs) := by
  cases bs with
  | nil => rfl
  | cons b bs => rw [pullBytes, if_neg (by simp; omega)]

theorem pullBytes_step {acc n : Nat} (h : n < 12) (b : Byte) (bs : Bytes) :
    pullBytes acc n (b :: bs) = pullBytes (acc * 2 ^ 8 + b.toNat) (n + 8) bs := by
  rw [pullBytes, if_pos (by simpa using h)]

/-- BC_READ changes AIN, RBITS and RCNT alone. -/
theorem bcRead_frame (s : State) :
    ∃ bs rb rc, (bcRead s).2 = { s with ain := bs, rbits := rb, rcnt := rc } := by
  rw [bcRead]
  dsimp only
  split
  · exact ⟨_, _, _, rfl⟩
  · exact ⟨_, _, _, rfl⟩

end Sys2Proof.Machine
end

