-- ==== Sys2Proof/Laws/Memory.lean ====
section
/-! SUPPORT. The laws of the dictionary entry memory: reading after writing, and the canonical form. -/

namespace Sys2Proof.Machine

@[simp] theorem memRead_nil (c : Nat) : memRead c [] = [] := rfl

theorem risingFrom_mono {lo hi : Nat} (h : lo ≤ hi) {m : Memory} (hm : Memory.risingFrom hi m = true) :
    Memory.risingFrom lo m = true := by
  cases m with
  | nil => rfl
  | cons e m =>
    obtain ⟨c, x⟩ := e
    simp only [Memory.risingFrom, Bool.and_eq_true, decide_eq_true_eq] at hm ⊢
    exact ⟨⟨by omega, hm.1.2⟩, hm.2⟩

/-- Below the first listed code every read gives what an unlisted entry reads as. -/
theorem memRead_below {lo c : Nat} (hc : c < lo) {m : Memory} (hm : Memory.risingFrom lo m = true) :
    memRead c m = [] := by
  induction m generalizing lo with
  | nil => rfl
  | cons e m ih =>
    obtain ⟨k, x⟩ := e
    simp only [Memory.risingFrom, Bool.and_eq_true, decide_eq_true_eq] at hm
    rw [memRead, if_neg (by omega)]
    exact ih (by omega) hm.2

/-- A written entry reads as what was written. -/
theorem memRead_memWrite_same (c : Nat) (x : Bytes) {lo : Nat} {m : Memory}
    (hm : Memory.risingFrom lo m = true) : memRead c (memWrite c x m) = x := by
  induction m generalizing lo with
  | nil => by_cases hx : x = [] <;> simp [memWrite, memRead, hx]
  | cons e m ih =>
    obtain ⟨k, y⟩ := e
    have hm' := hm
    simp only [Memory.risingFrom, Bool.and_eq_true, decide_eq_true_eq] at hm
    rw [memWrite]
    split
    · rename_i hck
      split
      · rename_i hx
        rw [memRead, if_neg (by omega), memRead_below (Nat.lt_succ_of_lt hck) hm.2, hx]
      · rw [memRead, if_pos rfl]
    · split
      · rename_i hck
        subst hck
        split
        · rename_i hx
          rw [memRead_below (Nat.lt_succ_self c) hm.2, hx]
        · rw [memRead, if_pos rfl]
      · rw [memRead, if_neg (by omega)]
        exact ih hm.2

/-- A write leaves every other entry alone. -/
theorem memRead_memWrite_other {c d : Nat} (x : Bytes) (h : d ≠ c) (m : Memory) :
    memRead d (memWrite c x m) = memRead d m := by
  induction m with
  | nil =>
    by_cases hx : x = []
    · simp [memWrite, hx]
    · simp [memWrite, memRead, hx, h.symm]
  | cons e m ih =>
    obtain ⟨k, y⟩ := e
    rw [memWrite]
    split
    · split
      · rfl
      · rw [memRead, if_neg (Ne.symm h)]
    · split
      · rename_i hck
        split
        · rw [memRead, if_neg (by omega)]
        · rw [memRead, if_neg (Ne.symm h), memRead, if_neg (by omega)]
      · simp only [memRead, ih]

theorem memWrite_risingFrom {lo c : Nat} (x : Bytes) (hc : lo ≤ c) {m : Memory}
    (hm : Memory.risingFrom lo m = true) : Memory.risingFrom lo (memWrite c x m) = true := by
  induction m generalizing lo with
  | nil =>
    by_cases hx : x = []
    · simp [memWrite, hx, Memory.risingFrom]
    · simp [memWrite, hx, Memory.risingFrom, hc]
  | cons e m ih =>
    obtain ⟨k, y⟩ := e
    have hm' := hm
    simp only [Memory.risingFrom, Bool.and_eq_true, decide_eq_true_eq] at hm
    rw [memWrite]
    split
    · split
      · exact hm'
      · rename_i hck hx
        simp only [Memory.risingFrom, Bool.and_eq_true, decide_eq_true_eq]
        exact ⟨⟨hc, hx⟩, ⟨hck, hm.1.2⟩, hm.2⟩
    · split
      · rename_i hck
        subst hck
        split
        · exact risingFrom_mono (by omega) hm.2
        · rename_i hx
          simp only [Memory.risingFrom, Bool.and_eq_true, decide_eq_true_eq]
          exact ⟨⟨hc, hx⟩, hm.2⟩
      · simp only [Memory.risingFrom, Bool.and_eq_true, decide_eq_true_eq]
        exact ⟨hm.1, ih (by omega) hm.2⟩

/-- Every write keeps the canonical form; it is the one operation that changes the memory. -/
theorem memWrite_wf (c : Nat) (x : Bytes) {m : Memory} (hm : m.wf = true) : (memWrite c x m).wf = true :=
  memWrite_risingFrom x (Nat.zero_le c) hm

theorem reset_entry_wf : State.reset.entry.wf = true := rfl

/-- A listed entry is what its code reads as. -/
theorem memRead_of_mem {lo : Nat} {m : Memory} (hm : Memory.risingFrom lo m = true) {c : Nat} {x : Bytes}
    (h : (c, x) ∈ m) : lo ≤ c ∧ memRead c m = x := by
  induction m generalizing lo with
  | nil => cases h
  | cons e m ih =>
    obtain ⟨k, y⟩ := e
    simp only [Memory.risingFrom, Bool.and_eq_true, decide_eq_true_eq] at hm
    rcases List.mem_cons.mp h with h | h
    · cases h
      exact ⟨hm.1.1, by rw [memRead, if_pos rfl]⟩
    · have := ih hm.2 h
      exact ⟨by omega, by rw [memRead, if_neg (by omega)]; exact this.2⟩

/-- A code that reads as a non-empty string is listed. -/
theorem mem_of_memRead {m : Memory} {c : Nat} {x : Bytes} (h : memRead c m = x) (hx : x ≠ []) :
    (c, x) ∈ m := by
  induction m with
  | nil => exact absurd h.symm hx
  | cons e m ih =>
    obtain ⟨k, y⟩ := e
    rw [memRead] at h
    split at h
    · rename_i hk
      rw [hk, h]
      exact List.mem_cons_self
    · exact List.mem_cons_of_mem _ (ih h)

end Sys2Proof.Machine
end

