-- ==== Sys2Proof/Laws/Dictionary.lean ====
section
/-! SUPPORT. What the dictionary's operations can do, said once for each of them. -/

namespace Sys2Proof.Machine

@[simp] theorem code_toNat_ofNat_lt {n : Nat} (h : n < 4096) : (BitVec.ofNat 12 n).toNat = n := by
  simp [BitVec.toNat_ofNat, Nat.mod_eq_of_lt h]

theorem code_lt (c : Code) : c.toNat < 4096 := c.isLt

/-- DICT_ALLOC: either the epoch is full and a new one starts, or nothing changes. -/
theorem dictAlloc_cases (s : State) :
    (s.nextCode.toNat = 4095 ∧ dictAlloc s = (256#12, dictReset s)) ∨
      (s.nextCode.toNat ≠ 4095 ∧ dictAlloc s = (s.nextCode, s)) := by
  by_cases h : s.nextCode.toNat = 4095
  · exact .inl ⟨h, by simp [dictAlloc, h]⟩
  · exact .inr ⟨h, by simp [dictAlloc, h]⟩

/-- The allocated code is NEXT of the state that comes with it, and an assignable one (R74). -/
theorem dictAlloc_code {s : State} (h : 256 ≤ s.nextCode.toNat) :
    (dictAlloc s).1 = (dictAlloc s).2.nextCode ∧ 256 ≤ (dictAlloc s).1.toNat ∧
      (dictAlloc s).1.toNat ≤ 4094 := by
  have := code_lt s.nextCode
  obtain ⟨h', e⟩ | ⟨h', e⟩ := dictAlloc_cases s
  · rw [e]
    exact ⟨rfl, Nat.le_refl 256, by show (256 : Nat) ≤ 4094; omega⟩
  · rw [e]
    exact ⟨rfl, h, by show s.nextCode.toNat ≤ 4094; omega⟩

/-- DICT_ALLOC changes NEXT alone. -/
theorem dictAlloc_frame (s : State) : (dictAlloc s).2 = { s with nextCode := (dictAlloc s).1 } := by
  obtain ⟨_, e⟩ | ⟨_, e⟩ := dictAlloc_cases s
  · rw [e]
    rfl
  · rw [e]

theorem insertable_iff (c : Code) (x : Bytes) (s : State) :
    insertable c x s = true ↔ c = s.nextCode ∧ 256 ≤ c.toNat ∧ c.toNat ≤ 4094 ∧ 2 ≤ x.length ∧
      x.length ≤ 3841 := by
  simp [insertable, and_assoc]

/-- An insertion that answers a state: its precondition held, and it wrote the entry and NEXT alone. -/
theorem insertEntry_some {c : Code} {x : Bytes} {s t : State} (h : insertEntry c x s = some t) :
    insertable c x s = true ∧
      t = { s with entry := memWrite c.toNat x s.entry, nextCode := BitVec.ofNat 12 (c.toNat + 1) } := by
  rw [insertEntry] at h
  split at h
  · rename_i hi
    exact ⟨hi, (Option.some.inj h).symm⟩
  · cases h

theorem insertEntry_of_insertable {c : Code} {x : Bytes} {s : State} (h : insertable c x s = true) :
    insertEntry c x s =
      some { s with entry := memWrite c.toNat x s.entry, nextCode := BitVec.ofNat 12 (c.toNat + 1) } :=
  if_pos h

/-- A string of other than one byte is looked up among the listed entries. -/
theorem dictElookup_scan {x : Bytes} (hx : x.length ≠ 1) (s : State) :
    dictElookup x s =
      (s.entry.find? (holdsString s.nextCode.toNat x)).map fun e => BitVec.ofNat 12 e.1 := by
  match x with
  | [] => rfl
  | [_] => exact absurd rfl hx
  | _ :: _ :: _ => rfl

@[simp] theorem dictElookup_single (b : Byte) (s : State) : dictElookup [b] s = some (literalCode b) := rfl

/-- A lookup that finds a string of two or more bytes finds a dynamic code of the epoch that holds it. -/
theorem dictElookup_holds {x : Bytes} {s : State} {c : Code} (hm : s.entry.wf = true) (hx : x.length ≠ 1)
    (h : dictElookup x s = some c) : Holds s c.toNat x := by
  rw [dictElookup_scan hx] at h
  obtain ⟨⟨k, y⟩, he, hc⟩ := Option.map_eq_some_iff.mp h
  have hp := List.find?_some he
  have hmem := List.mem_of_find?_eq_some he
  simp only [holdsString, firstDyn_eq, Bool.and_eq_true, decide_eq_true_eq] at hp
  have hk : c.toNat = k := by
    rw [← hc]
    exact code_toNat_ofNat_lt (Nat.lt_trans hp.1.2 (code_lt _))
  rw [hk]
  exact ⟨hp.1.1, hp.1.2, by rw [(memRead_of_mem hm hmem).2, hp.2]⟩

/-- A lookup answers absent only where no dynamic code of the epoch holds the string. -/
theorem dictElookup_absent {x : Bytes} {s : State} (hx : x.length ≠ 1) (h0 : x ≠ [])
    (h : dictElookup x s = none) (c : Nat) : ¬ Holds s c x := by
  rintro ⟨h1, h2, h3⟩
  rw [dictElookup_scan hx, Option.map_eq_none_iff, List.find?_eq_none] at h
  refine h _ (mem_of_memRead h3 h0) ?_
  simp only [firstDyn_eq] at h1
  simp [holdsString, h1, h2]

/-- A string some dynamic code of the epoch holds is found. -/
theorem dictElookup_isSome {x : Bytes} {s : State} {c : Nat} (h0 : x ≠ []) (h : Holds s c x) :
    ∃ k, dictElookup x s = some k := by
  by_cases hx : x.length = 1
  · match x, hx with
    | [b], _ => exact ⟨_, rfl⟩
  · cases e : dictElookup x s with
    | some k => exact ⟨k, rfl⟩
    | none => exact absurd h (dictElookup_absent hx h0 e c)

/-- D(c) is present exactly for the literals and for the dynamic codes of the epoch (R29). -/
theorem dictDlookup_cases (c : Code) (s : State) :
    (c.toNat < 256 ∧ dictDlookup c s = some (literalString c)) ∨
    (256 ≤ c.toNat ∧ c.toNat < s.nextCode.toNat ∧ dictDlookup c s = some (memRead c.toNat s.entry)) ∨
    (256 ≤ c.toNat ∧ s.nextCode.toNat ≤ c.toNat ∧ dictDlookup c s = none) := by
  simp only [dictDlookup, numLiterals_eq]
  by_cases h : c.toNat < 256
  · exact .inl ⟨h, if_pos h⟩
  · rw [if_neg h]
    by_cases h' : c.toNat < s.nextCode.toNat
    · exact .inr (.inl ⟨by omega, h', if_pos h'⟩)
    · exact .inr (.inr ⟨by omega, by omega, if_neg h'⟩)

end Sys2Proof.Machine
end

