-- ==== Sys2Proof/Laws/Dispatch.lean ====
section
/-! SUPPORT. What dispatch can do (R96), and how a step is put together. -/

namespace Sys2Proof.Machine

/-- A command that answers a next state: refused in FAULT, run where the mode admits it, SEQ_ERROR
otherwise. -/
theorem command_next {op : Nat} {imm : Byte} {body : State → Result} {s t : State}
    (h : command op imm body s = .next t) :
    s.busy = false ∧
      ((s.mode = .fault ∧ t = s) ∨
        (s.mode ≠ .fault ∧ legal s.mode op = true ∧ body s = .next t) ∨
        (s.mode ≠ .fault ∧ legal s.mode op = false ∧
          t = raise .seqError (cmdWord op imm) FInfo.zero s)) := by
  rw [command] at h
  split at h
  · cases h
  · rename_i hb
    refine ⟨by simpa using hb, ?_⟩
    split at h
    · rename_i hf
      cases h
      exact .inl ⟨hf, rfl⟩
    · rename_i hf
      split at h
      · rename_i hl
        exact .inr (.inl ⟨hf, hl, h⟩)
      · rename_i hl
        cases h
        exact .inr (.inr ⟨hf, by simpa using hl, rfl⟩)

/-- Where the mode admits the command, dispatch runs its rule. -/
theorem command_run {op : Nat} {imm : Byte} {body : State → Result} {s : State} (hb : s.busy = false)
    (hf : s.mode ≠ .fault) (hl : legal s.mode op = true) : command op imm body s = body s := by
  simp [command, hb, hf, hl]

/-- In FAULT a command other than ABORT is refused without any change (R115). -/
theorem command_fault {op : Nat} {imm : Byte} {body : State → Result} {s : State} (hb : s.busy = false)
    (hf : s.mode = .fault) : command op imm body s = .next s := by
  simp [command, hb, hf]

/-- A command its mode does not admit raises SEQ_ERROR (R97). -/
theorem command_illegal {op : Nat} {imm : Byte} {body : State → Result} {s : State}
    (hb : s.busy = false) (hf : s.mode ≠ .fault) (hl : legal s.mode op = false) :
    command op imm body s = .next (raise .seqError (cmdWord op imm) FInfo.zero s) := by
  simp [command, hb, hf, hl]

/-- An illegal word that answers a next state. -/
theorem illegalWord_next {w : Word} {s t : State} (h : illegalWord w s = .next t) :
    s.busy = false ∧ ((s.mode = .fault ∧ t = s) ∨
      (s.mode ≠ .fault ∧ t = raise .illegalCmd w FInfo.zero s)) := by
  rw [illegalWord] at h
  split at h
  · cases h
  · rename_i hb
    refine ⟨by simpa using hb, ?_⟩
    split at h
    · rename_i hf
      cases h
      exact .inl ⟨hf, rfl⟩
    · rename_i hf
      cases h
      exact .inr ⟨hf, rfl⟩

/-- The four kinds of move of a core whose internal port is empty. -/
theorem fetch_cases (s : State) (hu : s.uopPort = none) :
    (s.busy = true ∧ fetch s = fetchMicro s) ∨
      (s.busy = false ∧ s.cmdq = [] ∧ fetch s = .done (.next s)) ∨
      (∃ w rest i, s.busy = false ∧ s.cmdq = w :: rest ∧ decodeCmd w = .ok i ∧
        fetch s = .run i { s with cmdq := rest }) ∨
      (∃ w rest r, s.busy = false ∧ s.cmdq = w :: rest ∧ decodeCmd w = .reject r ∧
        fetch s = .done (illegalWord w { s with cmdq := rest })) := by
  have hf : fetch s = if s.busy then fetchMicro s else fetchCommand s := by
    unfold fetch
    split
    · rename_i w hw
      rw [hu] at hw
      cases hw
    · rfl
  by_cases hb : s.busy = true
  · exact .inl ⟨hb, by rw [hf, if_pos hb]⟩
  · have hb' : s.busy = false := by simpa using hb
    rw [if_neg hb] at hf
    unfold fetchCommand at hf
    split at hf
    · rename_i hq
      exact .inr (.inl ⟨hb', hq, hf⟩)
    · rename_i w rest hq
      split at hf
      · rename_i i hd
        exact .inr (.inr (.inl ⟨w, rest, i, hb', hq, hd, hf⟩))
      · rename_i r hd
        exact .inr (.inr (.inr ⟨w, rest, r, hb', hq, hd, hf⟩))

theorem step_of_run {s t : State} {i : Instr} (h : fetch s = .run i t) : step s = exec i t := by
  rw [step, h]

theorem step_of_done {s : State} {o : Result} (h : fetch s = .done o) : step s = o := by
  rw [step, h]

end Sys2Proof.Machine
end

