-- ==== Sys2Proof/Laws/PerInstr.lean ====
section
/-! SUPPORT. The family TableRow: the word of every instruction lies in its row of spec/opcode_table.json.
Every mask of the table keeps a prefix of the word, so that a row is a range of words of one width. -/

namespace Sys2Proof.Laws.TableRow

/-- The width and the value of a word. -/
def wordOf : Encoded → Nat × Nat
  | .cmd w => (32, w.toNat)
  | .uop w => (16, w.toNat)
  | .code c => (12, c.toNat)

/-- The row of an instruction: its width, its first word and its last word (R50, R58, R61). -/
def row : Instr → Nat × Nat × Nat
  | .cStart => (32, 0x10000000, 0x10000000)
  | .cNameb _ => (32, 0x20000000, 0x200000FF)
  | .cNameend => (32, 0x30000000, 0x30000000)
  | .cHdrend => (32, 0x40000000, 0x40000000)
  | .cFbegin => (32, 0x50000000, 0x50000000)
  | .cData _ => (32, 0x60000000, 0x600000FF)
  | .cFend => (32, 0x70000000, 0x70000000)
  | .cFinish => (32, 0x80000000, 0x80000000)
  | .dStart => (32, 0x90000000, 0x90000000)
  | .dName => (32, 0xA0000000, 0xA0000000)
  | .dFile => (32, 0xB0000000, 0xB0000000)
  | .dFinish => (32, 0xC0000000, 0xC0000000)
  | .abort => (32, 0xD0000000, 0xD0000000)
  | .illegalOp0 _ => (32, 0x00000000, 0x0FFFFFFF)
  | .illegalOpE _ => (32, 0xE0000000, 0xEFFFFFFF)
  | .illegalOpF _ => (32, 0xF0000000, 0xFFFFFFFF)
  | .bcWrite _ => (16, 0x0000, 0x0FFF)
  | .bcRead => (16, 0x1000, 0x1FFF)
  | .bcWclr => (16, 0x2000, 0x2FFF)
  | .bcRclr => (16, 0x3000, 0x3FFF)
  | .dictReset => (16, 0x4000, 0x4FFF)
  | .dictAlloc => (16, 0x5000, 0x5FFF)
  | .dictElookup => (16, 0x6000, 0x6FFF)
  | .dictEinsert _ => (16, 0x7000, 0x7FFF)
  | .dictDlookup _ => (16, 0x8000, 0x8FFF)
  | .dictDinsert _ => (16, 0x9000, 0x9FFF)
  | .uopReserved _ _ => (16, 0xA000, 0xFFFF)
  | .sent => (12, 0xFFF, 0xFFF)
  | .lit _ => (12, 0x000, 0x0FF)
  | .dyn _ => (12, 0x100, 0xFFE)

/-- The word of a well-formed instruction has its row's width and lies in its row. -/
def Statement (i : Instr) : Prop :=
  i.wf = true →
    (wordOf (encode i)).1 = (row i).1 ∧ (row i).2.1 ≤ (wordOf (encode i)).2 ∧
      (wordOf (encode i)).2 ≤ (row i).2.2

theorem cmdWord_toNat {op : Nat} (h : op < 16) (b : Byte) :
    (cmdWord op b).toNat = op * 2 ^ 28 + b.toNat := by
  have := b.isLt
  rw [cmdWord, BitVec.toNat_ofNat, Nat.mod_eq_of_lt (by omega)]

theorem rawWord_toNat {op : Nat} (h : op < 16) (r : BitVec 28) :
    (rawWord op r).toNat = op * 2 ^ 28 + r.toNat := by
  have := r.isLt
  rw [rawWord, BitVec.toNat_ofNat, Nat.mod_eq_of_lt (by omega)]

theorem uopWord_toNat {sel : Nat} (h : sel < 16) (c : Code) :
    (uopWord sel c).toNat = sel * 2 ^ 12 + c.toNat := by
  have := c.isLt
  rw [uopWord, BitVec.toNat_ofNat, Nat.mod_eq_of_lt (by omega)]

/-- A command with a byte lies in its row. -/
theorem byte_row {op : Nat} (h : op < 16) (b : Byte) :
    op * 2 ^ 28 ≤ (cmdWord op b).toNat ∧ (cmdWord op b).toNat ≤ op * 2 ^ 28 + 255 := by
  have := b.isLt
  rw [cmdWord_toNat h]
  omega

/-- A word with a reserved opcode lies in its row. -/
theorem raw_row {op : Nat} (h : op < 16) (r : BitVec 28) :
    op * 2 ^ 28 ≤ (rawWord op r).toNat ∧ (rawWord op r).toNat ≤ op * 2 ^ 28 + (2 ^ 28 - 1) := by
  have := r.isLt
  rw [rawWord_toNat h]
  omega

/-- A selector word lies in its row. -/
theorem uop_row {sel : Nat} (h : sel < 16) (c : Code) :
    sel * 2 ^ 12 ≤ (uopWord sel c).toNat ∧ (uopWord sel c).toNat ≤ sel * 2 ^ 12 + 4095 := by
  have := c.isLt
  rw [uopWord_toNat h]
  omega

theorem cStart : Statement .cStart := fun _ => ⟨rfl, by decide, by decide⟩
theorem cNameb (b : Byte) : Statement (.cNameb b) := fun _ => ⟨rfl, byte_row (op := 0x2) (by decide) b⟩
theorem cNameend : Statement .cNameend := fun _ => ⟨rfl, by decide, by decide⟩
theorem cHdrend : Statement .cHdrend := fun _ => ⟨rfl, by decide, by decide⟩
theorem cFbegin : Statement .cFbegin := fun _ => ⟨rfl, by decide, by decide⟩
theorem cData (b : Byte) : Statement (.cData b) := fun _ => ⟨rfl, byte_row (op := 0x6) (by decide) b⟩
theorem cFend : Statement .cFend := fun _ => ⟨rfl, by decide, by decide⟩
theorem cFinish : Statement .cFinish := fun _ => ⟨rfl, by decide, by decide⟩
theorem dStart : Statement .dStart := fun _ => ⟨rfl, by decide, by decide⟩
theorem dName : Statement .dName := fun _ => ⟨rfl, by decide, by decide⟩
theorem dFile : Statement .dFile := fun _ => ⟨rfl, by decide, by decide⟩
theorem dFinish : Statement .dFinish := fun _ => ⟨rfl, by decide, by decide⟩
theorem abort : Statement .abort := fun _ => ⟨rfl, by decide, by decide⟩
theorem illegalOp0 (r : BitVec 28) :
    Statement (.illegalOp0 r) := fun _ => ⟨rfl, raw_row (op := 0x0) (by decide) r⟩
theorem illegalOpE (r : BitVec 28) :
    Statement (.illegalOpE r) := fun _ => ⟨rfl, raw_row (op := 0xE) (by decide) r⟩
theorem illegalOpF (r : BitVec 28) :
    Statement (.illegalOpF r) := fun _ => ⟨rfl, raw_row (op := 0xF) (by decide) r⟩
theorem bcWrite (c : Code) : Statement (.bcWrite c) := fun _ => ⟨rfl, uop_row (sel := 0x0) (by decide) c⟩
theorem bcRead : Statement .bcRead := fun _ => ⟨rfl, by decide, by decide⟩
theorem bcWclr : Statement .bcWclr := fun _ => ⟨rfl, by decide, by decide⟩
theorem bcRclr : Statement .bcRclr := fun _ => ⟨rfl, by decide, by decide⟩
theorem dictReset : Statement .dictReset := fun _ => ⟨rfl, by decide, by decide⟩
theorem dictAlloc : Statement .dictAlloc := fun _ => ⟨rfl, by decide, by decide⟩
theorem dictElookup : Statement .dictElookup := fun _ => ⟨rfl, by decide, by decide⟩
theorem dictEinsert (c : Code) : Statement (.dictEinsert c) := fun _ => ⟨rfl, uop_row (sel := 0x7) (by decide) c⟩
theorem dictDlookup (c : Code) : Statement (.dictDlookup c) := fun _ => ⟨rfl, uop_row (sel := 0x8) (by decide) c⟩
theorem dictDinsert (c : Code) : Statement (.dictDinsert c) := fun _ => ⟨rfl, uop_row (sel := 0x9) (by decide) c⟩

theorem uopReserved (sel : BitVec 4) (c : Code) : Statement (.uopReserved sel c) := by
  intro h
  have hs : 0xA ≤ sel.toNat := by simpa [Instr.wf] using h
  have hr := uop_row sel.isLt c
  have := sel.isLt
  refine ⟨rfl, ?_, ?_⟩
  · show 0xA000 ≤ (uopWord sel.toNat c).toNat
    omega
  · show (uopWord sel.toNat c).toNat ≤ 0xFFFF
    omega

theorem sent : Statement .sent := fun _ => ⟨rfl, by decide, by decide⟩

theorem lit (d : Byte) : Statement (.lit d) := by
  intro _
  have := d.isLt
  refine ⟨rfl, Nat.zero_le _, ?_⟩
  show (BitVec.ofNat 12 d.toNat).toNat ≤ 0xFF
  rw [BitVec.toNat_ofNat]
  omega

theorem dyn (c : Code) : Statement (.dyn c) := by
  intro h
  simp only [Instr.wf, Bool.and_eq_true, decide_eq_true_eq] at h
  exact ⟨rfl, h⟩

end Sys2Proof.Laws.TableRow
end

