-- ==== Sys2Proof/Tests/Slice0.lean ====
section
/-! SUPPORT. The model's own tests: ill-formed terms, decoding of words written out from the spec's
encodings, single steps against 95_test_vectors.md, and a witness for the hypotheses of each statement. -/

namespace Sys2Proof.Tests

open Sys2Proof Sys2Proof.Machine Sys2Proof.Claims

/-! ## Helpers -/

/-- Whether an outcome is a next state that passes the check. -/
def goesTo (o : Result) (p : State → Bool) : Bool :=
  match o with
  | .next t => p t
  | .fault _ => false
  | .refused _ => false

/-- Reset, but in mode m. -/
def inMode (m : Mode) : State := { State.reset with mode := m }

/-- Reset, but in CHDR with this NAME_OPEN and NFILES. -/
def header (isOpen : Bool) (n : BitVec 32) : State :=
  { State.reset with mode := .chdr, nameOpen := isOpen, nfiles := n }

/-- Reset, but in CFILE of a one-file archive, holding S. -/
def filing (x : Bytes) : State := { State.reset with mode := .cfile, nfiles := 1#32, sbuf := x }

/-- Reset, but between the segments of an archive with n names, the next being segment i. -/
def between (m : Mode) (n i : BitVec 32) : State := { State.reset with mode := m, nfiles := n, fidx := i }

/-- Reset, but in D_NAME with this AIN, LINE_OPEN and NFILES. -/
def naming (bs : Bytes) (isOpen : Bool) (n : BitVec 32) : State :=
  { State.reset with mode := .dhdr, busy := true, ain := bs, lineOpen := isOpen, nfiles := n }

/-- Reset, but in D_FILE of a one-file archive, in this micro-state, with CUR_STR and AIN. -/
def decoding (d : DState) (x bs : Bytes) : State :=
  { State.reset with
    mode := .dfile, busy := true, nfiles := 1#32, dstate := d, curStr := x, ain := bs }

/-- NEXT = 258, ENTRY[256] = "AB", ENTRY[257] = "BA" (vector DICT-5). -/
def withAB (s : State) : State :=
  { s with nextCode := 258#12, entry := [(256, [0x41#8, 0x42#8]), (257, [0x42#8, 0x41#8])] }

/-- The state with a command word waiting on the command port. -/
def told (w : Word) (s : State) : State := { s with cmdq := [w] }

/-! ## Well-formedness -/

theorem test_wf_refuses_selector_below_ten : (Instr.uopReserved 9#4 0#12).wf = false := by decide
theorem test_wf_admits_selector_ten : (Instr.uopReserved 10#4 0#12).wf = true := by decide
theorem test_wf_refuses_dyn_literal : (Instr.dyn 0x0FF#12).wf = false := by decide
theorem test_wf_refuses_dyn_sentinel : (Instr.dyn 0xFFF#12).wf = false := by decide
theorem test_wf_admits_dyn_bounds :
    (Instr.dyn 0x100#12).wf = true ∧ (Instr.dyn 0xFFE#12).wf = true := by decide

/-! ## Decoding -/

/-- R58: the host commands, word by word. -/
theorem test_decode_commands :
    decodeCmd 0b00010000000000000000000000000000#32 = .ok .cStart ∧
    decodeCmd 0b00100000000000000000000001100001#32 = .ok (.cNameb 0x61#8) ∧
    decodeCmd 0b00110000000000000000000000000000#32 = .ok .cNameend ∧
    decodeCmd 0b01000000000000000000000000000000#32 = .ok .cHdrend ∧
    decodeCmd 0b01010000000000000000000000000000#32 = .ok .cFbegin ∧
    decodeCmd 0b01100000000000000000000010000001#32 = .ok (.cData 0x81#8) ∧
    decodeCmd 0b01110000000000000000000000000000#32 = .ok .cFend ∧
    decodeCmd 0b10000000000000000000000000000000#32 = .ok .cFinish ∧
    decodeCmd 0b10010000000000000000000000000000#32 = .ok .dStart ∧
    decodeCmd 0b10100000000000000000000000000000#32 = .ok .dName ∧
    decodeCmd 0b10110000000000000000000000000000#32 = .ok .dFile ∧
    decodeCmd 0b11000000000000000000000000000000#32 = .ok .dFinish ∧
    decodeCmd 0b11010000000000000000000000000000#32 = .ok .abort := by decide

/-- R59: the illegal words (vector FR-9 and a reserved opcode with every other bit set). -/
theorem test_decode_illegal_words :
    decodeCmd 0x00000000#32 = .ok (.illegalOp0 0#28) ∧
    decodeCmd 0xE0000000#32 = .ok (.illegalOpE 0#28) ∧
    decodeCmd 0xFFFFFFFF#32 = .ok (.illegalOpF 0xFFFFFFF#28) ∧
    decodeCmd 0x10000100#32 = .reject .rsvNonzero ∧ decodeCmd 0x18000000#32 = .reject .rsvNonzero ∧
    decodeCmd 0x10000001#32 = .reject .immNonzero ∧ decodeCmd 0xD0000001#32 = .reject .immNonzero ∧
    decodeCmd 0x20000100#32 = .reject .rsvNonzero := by decide

/-- R61: the selectors, SEL in bits [15:12] and CODE in bits [11:0]. -/
theorem test_decode_selectors :
    decodeUop 0b0000000001000001#16 = .bcWrite 0x041#12 ∧
    decodeUop 0b0001000000000000#16 = .bcRead ∧ decodeUop 0b0010000000000000#16 = .bcWclr ∧
    decodeUop 0b0011000000000000#16 = .bcRclr ∧ decodeUop 0b0100000000000000#16 = .dictReset ∧
    decodeUop 0b0101000000000000#16 = .dictAlloc ∧ decodeUop 0b0110000000000000#16 = .dictElookup ∧
    decodeUop 0b0111000100000000#16 = .dictEinsert 0x100#12 ∧
    decodeUop 0b1000000100000010#16 = .dictDlookup 0x102#12 ∧
    decodeUop 0b1001111111111110#16 = .dictDinsert 0xFFE#12 ∧
    decodeUop 0b1010000000000001#16 = .uopReserved 0xA#4 0x001#12 ∧
    decodeUop 0b1111000000000000#16 = .uopReserved 0xF#4 0x000#12 := by decide

/-- R50: the code classes, at the ends of their ranges. -/
theorem test_decode_codes :
    decodeCode 0b111111111111#12 = .sent ∧ decodeCode 0b000000000000#12 = .lit 0x00#8 ∧
    decodeCode 0b000011111111#12 = .lit 0xFF#8 ∧ decodeCode 0b000100000000#12 = .dyn 0x100#12 ∧
    decodeCode 0b111111111110#12 = .dyn 0xFFE#12 := by decide

/-- A table word by its width. -/
theorem test_decode_table_words :
    decodeTableWord 32 0x20000061 = some (.cNameb 0x61#8) ∧ decodeTableWord 32 0x10000100 = none ∧
    decodeTableWord 16 0x1000 = some .bcRead ∧ decodeTableWord 12 0xFFF = some .sent ∧
    decodeTableWord 16 0x0FFF = some .sent := by decide

/-- The word that withFetchWord places is the one the next step runs. -/
theorem test_placed_words_run :
    goesTo (step (State.reset.withFetchWord 32 0x10000000)) (fun t => t.mode = .chdr) = true ∧
    goesTo (step (State.reset.withFetchWord 16 0x5000)) (fun t => t.uopRes = .code 256#12) = true ∧
    goesTo (step (State.reset.withFetchWord 12 0xFFF)) (fun t => t.dout = [⟨.fileEnd, 0#8⟩]) = true := by
  decide

/-! ## One step of each instruction, against 95_test_vectors.md -/

/-- RST-3. -/
theorem test_cStart :
    goesTo (exec .cStart { State.reset with wbits := 0xF#7, wcnt := 4#3, tailDrop := true })
      (fun t => t.wbits = 0#7 ∧ t.wcnt = 0#3 ∧ t.tailDrop = false ∧ t.mode = .chdr ∧
        t.nextCode = 256#12) = true := by decide

/-- The example of R99. -/
theorem test_cNameb :
    goesTo (exec (.cNameb 0x61#8) (inMode .chdr)) (fun t => t.aout = [0x61#8] ∧ t.nameOpen = true) = true := by
  decide

/-- FR-3. -/
theorem test_cNameb_line_feed :
    goesTo (exec (.cNameb 0x0A#8) (inMode .chdr))
      (fun t => t.fcode = .badNameByte ∧ t.fcmd = 0x2000000A#32 ∧ t.aout = []) = true := by decide

/-- The example of R100. -/
theorem test_cNameend :
    goesTo (exec .cNameend (header true 0#32))
      (fun t => t.aout = [0x0A#8] ∧ t.nfiles = 1#32 ∧ t.nameOpen = false) = true := by decide

/-- FR-4. -/
theorem test_cNameend_empty :
    goesTo (exec .cNameend (inMode .chdr)) (fun t => t.fcode = .emptyName) = true := by decide

/-- The example of R101. -/
theorem test_cHdrend :
    goesTo (exec .cHdrend (header false 2#32))
      (fun t => t.aout = [0x0A#8] ∧ t.fidx = 0#32 ∧ t.mode = .cbody) = true := by decide

/-- FR-5. -/
theorem test_cHdrend_no_name :
    goesTo (exec .cHdrend (inMode .chdr)) (fun t => t.fcode = .countError) = true := by decide

/-- The example of R79. -/
theorem test_cFbegin :
    goesTo (exec .cFbegin (withAB (between .cbody 2#32 1#32)))
      (fun t => t.nextCode = 256#12 ∧ t.sbuf = [] ∧ t.mode = .cfile) = true := by decide

/-- FR-8. -/
theorem test_cFbegin_extra :
    goesTo (exec .cFbegin (between .cbody 1#32 1#32)) (fun t => t.fcode = .countError ∧ t.fidx = 1#32) =
      true := by decide

/-- The example of R80. -/
theorem test_cData :
    goesTo (exec (.cData 0x42#8) (filing [0x41#8]))
      (fun t => t.aout = [0x04#8] ∧ t.wbits = 1#7 ∧ t.wcnt = 4#3 ∧
        memRead 256 t.entry = [0x41#8, 0x42#8] ∧ t.nextCode = 257#12 ∧ t.sbuf = [0x42#8]) = true := by
  decide

/-- R123: with the epoch full the old code is emitted and the old string inserted at 256. -/
theorem test_cData_reset :
    goesTo (exec (.cData 0x43#8)
        { filing [0x41#8, 0x42#8] with nextCode := 4095#12, entry := [(4000, [0x41#8, 0x42#8])] })
      (fun t => t.aout = [0xFA#8] ∧ t.wbits = 0#7 ∧ memRead 256 t.entry = [0x41#8, 0x42#8, 0x43#8] ∧
        t.nextCode = 257#12 ∧ t.sbuf = [0x43#8]) = true := by decide

/-- The example of R81. -/
theorem test_cFend :
    goesTo (exec .cFend { filing [0x42#8] with wbits := 1#7, wcnt := 4#3 })
      (fun t => t.aout = [0x10#8, 0x42#8, 0xFF#8] ∧ t.wbits = 0xF#7 ∧ t.wcnt = 4#3 ∧ t.fidx = 1#32 ∧
        t.sbuf = [] ∧ t.mode = .cbody) = true := by decide

/-- The example of R102. -/
theorem test_cFinish :
    goesTo (exec .cFinish { between .cbody 1#32 1#32 with wbits := 0xF#7, wcnt := 4#3 })
      (fun t => t.tailDrop = true ∧ t.mode = .idle ∧ t.wbits = 0xF#7 ∧ t.aout = []) = true := by decide

/-- FR-7. -/
theorem test_cFinish_early :
    goesTo (exec .cFinish (between .cbody 1#32 0#32)) (fun t => t.fcode = .countError) = true := by decide

/-- The example of R104. -/
theorem test_dStart :
    goesTo (exec .dStart { State.reset with rcnt := 4#4 })
      (fun t => t.rbits = 0#12 ∧ t.rcnt = 0#4 ∧ t.mode = .dhdr) = true := by decide

/-- R105: the acceptance of D_NAME. -/
theorem test_dName : goesTo (exec .dName (inMode .dhdr)) (fun t => t.busy = true) = true := by decide

/-- FR-2: a blank first line. -/
theorem test_dName_blank_first_line :
    goesTo (step (naming [0x0A#8, 0xFF#8] false 0#32))
      (fun t => t.fcode = .countError ∧ t.fcmd = 0xA0000000#32 ∧ t.nfiles = 0#32) = true := by decide

/-- R85: the acceptance of D_FILE. -/
theorem test_dFile :
    goesTo (exec .dFile (withAB (between .dbody 1#32 0#32)))
      (fun t => t.busy = true ∧ t.mode = .dfile ∧ t.nextCode = 256#12 ∧ t.dstate = .first) = true := by
  decide

/-- The example of R85, DEC-7: the truncated sentinel. -/
theorem test_dFile_truncated_sentinel :
    goesTo (step (decoding .first [] [0xFF#8]))
      (fun t => t.dout = [⟨.fileEnd, 0#8⟩] ∧ t.truncSent = true ∧ t.fidx = 1#32 ∧ t.mode = .dbody) =
      true := by decide

/-- The example of R106. -/
theorem test_dFinish :
    goesTo (exec .dFinish (between .dbody 2#32 2#32)) (fun t => t.mode = .idle) = true := by decide

/-- The example of R108. -/
theorem test_abort :
    goesTo (exec .abort { inMode .fault with fcode := .decodeMiss }) (fun t => t = State.reset) = true := by
  decide

/-- FR-9, with STATUS = 00000017. -/
theorem test_illegalOp0 :
    goesTo (exec (.illegalOp0 0#28) State.reset)
      (fun t => t.fcmd = 0#32 ∧ regRead 0#4 t = 0x17#32) = true := by decide
theorem test_illegalOpE :
    goesTo (exec (.illegalOpE 0#28) State.reset)
      (fun t => t.fcmd = 0xE0000000#32 ∧ regRead 0#4 t = 0x17#32) = true := by decide
theorem test_illegalOpF :
    goesTo (exec (.illegalOpF 1#28) (inMode .fault)) (fun t => t = inMode .fault) = true := by decide

/-- BC-2. -/
theorem test_bcWrite :
    goesTo (exec (.bcWrite 0x042#12) { State.reset with wbits := 1#7, wcnt := 4#3 })
      (fun t => t.aout = [0x10#8, 0x42#8] ∧ t.wbits = 0#7 ∧ t.wcnt = 0#3) = true := by decide

/-- BC-3. -/
theorem test_bcWrite_sentinel :
    goesTo (exec (.bcWrite 0xFFF#12) State.reset)
      (fun t => t.aout = [0xFF#8] ∧ t.wbits = 0xF#7 ∧ t.wcnt = 4#3) = true := by decide

/-- The first read of BC-5. -/
theorem test_bcRead :
    goesTo (exec .bcRead { State.reset with ain := [0x12#8, 0x34#8, 0x56#8, 0x78#8] })
      (fun t => t.uopRes = .code 0x123#12 ∧ t.rbits = 4#12 ∧ t.rcnt = 4#4 ∧ t.ain = [0x56#8, 0x78#8]) =
      true := by decide

/-- The last read of BC-5. -/
theorem test_bcRead_exhausted :
    goesTo (exec .bcRead { State.reset with ain := [0x78#8] })
      (fun t => t.uopRes = .exhausted ∧ t.rbits = 0x78#12 ∧ t.rcnt = 8#4 ∧ t.ain = []) = true := by decide

/-- BC-8. -/
theorem test_bcWclr :
    goesTo (exec .bcWclr { State.reset with wbits := 0xF#7, wcnt := 4#3 }) (fun t => t = State.reset) =
      true := by decide
theorem test_bcRclr :
    goesTo (exec .bcRclr { State.reset with rbits := 0xFF#12, rcnt := 8#4 }) (fun t => t = State.reset) =
      true := by decide

/-- The example of R72. -/
theorem test_dictReset :
    goesTo (exec .dictReset { State.reset with nextCode := 4095#12 })
      (fun t => t.nextCode = 256#12 ∧ dictDlookup 256#12 t = none) = true := by decide

/-- DICT-3 and DICT-4. -/
theorem test_dictAlloc :
    goesTo (exec .dictAlloc { State.reset with nextCode := 4094#12 })
      (fun t => t.nextCode = 4094#12 ∧ t.uopRes = .code 4094#12) = true := by decide
theorem test_dictAlloc_full :
    goesTo (exec .dictAlloc { State.reset with nextCode := 4095#12 })
      (fun t => t.nextCode = 256#12 ∧ t.uopRes = .code 256#12) = true := by decide

/-- The example of R75. -/
theorem test_dictElookup :
    goesTo (exec .dictElookup { withAB State.reset with strBus := [0x41#8, 0x42#8] })
      (fun t => t.uopRes = .code 256#12) = true := by decide
theorem test_dictElookup_absent :
    goesTo (exec .dictElookup { withAB State.reset with strBus := [0x41#8, 0x42#8, 0x41#8] })
      (fun t => t.uopRes = .absent) = true := by decide

/-- DICT-2. -/
theorem test_dictEinsert :
    goesTo (exec (.dictEinsert 256#12) { State.reset with strBus := [0x41#8, 0x42#8] })
      (fun t => memRead 256 t.entry = [0x41#8, 0x42#8] ∧ t.nextCode = 257#12) = true := by decide

/-- DICT-5. -/
theorem test_dictDlookup :
    goesTo (exec (.dictDlookup 257#12) (withAB State.reset))
      (fun t => t.uopRes = .str [0x42#8, 0x41#8]) = true := by decide
theorem test_dictDlookup_absent :
    goesTo (exec (.dictDlookup 258#12) (withAB State.reset)) (fun t => t.uopRes = .absent) = true := by
  decide

/-- The example of R78. -/
theorem test_dictDinsert :
    goesTo (exec (.dictDinsert 258#12) { withAB State.reset with strBus := [0x41#8, 0x42#8, 0x41#8] })
      (fun t => memRead 258 t.entry = [0x41#8, 0x42#8, 0x41#8] ∧ t.nextCode = 259#12) = true := by decide

/-- 93_implementation_defined.md item 14: "stuck: never issued". -/
theorem test_uopReserved : goesTo (exec (.uopReserved 0xA#4 0#12) State.reset) (fun _ => true) = false := by
  decide

/-- The last micro-step of DEC-2. -/
theorem test_sent :
    goesTo (exec .sent (decoding .next [0x41#8] []))
      (fun t => t.dout = [⟨.fileEnd, 0#8⟩] ∧ t.fidx = 1#32 ∧ t.busy = false ∧ t.mode = .dbody) = true := by
  decide

/-- The third micro-step of DEC-2. -/
theorem test_lit :
    goesTo (exec (.lit 0x42#8) (decoding .next [0x41#8] []))
      (fun t => memRead 256 t.entry = [0x41#8, 0x42#8] ∧ t.curCode = 66#12 ∧ t.curStr = [0x42#8] ∧
        t.dstate = .emit) = true := by decide

/-- The example of R124. -/
theorem test_lit_reset :
    goesTo (exec (.lit 0x61#8) { decoding .next [0x70#8, 0x71#8] [] with nextCode := 4095#12 })
      (fun t => memRead 256 t.entry = [0x70#8, 0x71#8, 0x61#8] ∧ t.nextCode = 257#12 ∧
        t.curStr = [0x61#8]) = true := by decide

/-- The example of R88: the KwKwK case. -/
theorem test_dyn :
    goesTo (exec (.dyn 258#12) (withAB (decoding .next [0x41#8, 0x42#8] [])))
      (fun t => memRead 258 t.entry = [0x41#8, 0x42#8, 0x41#8] ∧ t.nextCode = 259#12 ∧
        t.curCode = 258#12 ∧ t.curStr = [0x41#8, 0x42#8, 0x41#8] ∧ t.dstate = .emit) = true := by decide

/-- DEC-4: a code above NEXT, with FINFO = 00010102. -/
theorem test_dyn_miss :
    goesTo (exec (.dyn 0x102#12) (decoding .next [0x41#8] []))
      (fun t => t.fcode = .decodeMiss ∧ regRead 9#4 t = 0x00010102#32 ∧ t.nextCode = 256#12) = true := by
  decide

/-- DEC-6: exhausted with RCNT = 4, with FINFO = 00024000. -/
theorem test_stream_exhausted :
    goesTo (step { decoding .next [0x41#8] [] with rcnt := 4#4 })
      (fun t => t.fcode = .streamExhausted ∧ regRead 9#4 t = 0x00024000#32 ∧ t.rcnt = 4#4) = true := by
  decide

/-- The header of P2 and its packed body. -/
theorem test_archive_of_P2 :
    archiveBytes [[0x78#8], [0x79#8]] [[], [65#12, 66#12, 256#12, 258#12]] =
      [0x78#8, 0x0A#8, 0x79#8, 0x0A#8, 0x0A#8, 0xFF#8, 0xF0#8, 0x41#8, 0x04#8, 0x21#8, 0x00#8, 0x10#8,
        0x2F#8, 0xFF#8] := by decide

/-- The words of P2's decompress program. -/
theorem test_decompress_words :
    programWords (expandPseudo (.decompress 2)) =
      [0x90000000#32, 0xA0000000#32, 0xA0000000#32, 0xA0000000#32, 0xB0000000#32, 0xB0000000#32,
        0xC0000000#32] := by decide

/-- Three lines of P1. -/
theorem test_assemble :
    assemble
      [ ['C', '_', 'N', 'A', 'M', 'E', 'B', ' ', '\'', 'a', '\'', ' ', ';', ' ', '2'],
        ['D', '_', 'F', 'I', 'L', 'E'],
        ['C', '_', 'D', 'A', 'T', 'A', ' ', '0', 'x', '4', '1'] ] =
      some [0x20000061#32, 0xB0000000#32, 0x60000041#32] := by decide

/-! ## Witnesses: states and operands that meet the hypotheses of a statement -/

theorem witness_StepDispatchesEveryWord_busy :
    (naming [0x61#8] false 0#32).uopPort = none ∧ (naming [0x61#8] false 0#32).busy = true ∧
      ∃ t, step (naming [0x61#8] false 0#32) = .next t := ⟨rfl, rfl, _, rfl⟩

theorem witness_StepDispatchesEveryWord_abort :
    (told 0xD0000000#32 (inMode .fault)).uopPort = none ∧ (told 0xD0000000#32 (inMode .fault)).busy = false ∧
      (told 0xD0000000#32 (inMode .fault)).cmdq = [0xD0000000#32] ∧
      (told 0xD0000000#32 (inMode .fault)).mode = .fault := by decide

/-- FR-11. -/
theorem witness_StepDispatchesEveryWord_refused :
    (told 0xD0000001#32 (inMode .fault)).uopPort = none ∧ (told 0xD0000001#32 (inMode .fault)).busy = false ∧
      (told 0xD0000001#32 (inMode .fault)).mode = .fault ∧ 0xD0000001#32 ≠ 0xD0000000#32 := by decide

theorem witness_StepDispatchesEveryWord_illegal :
    (told 0x10000100#32 State.reset).mode ≠ .fault ∧ IllegalWord 0x10000100#32 ∧ IllegalWord 0x10000001#32 ∧
      IllegalWord 0xE0000000#32 := by
  refine ⟨by decide, .inr (.inl (by decide)), .inr (.inr (by decide)), .inl (by decide)⟩

/-- FR-10 and FR-14. -/
theorem witness_StepDispatchesEveryWord_outOfMode :
    (told 0x60000041#32 State.reset).mode = .idle ∧ ¬ IllegalWord 0x60000041#32 ∧
      ¬ LegalOpcode .idle ((0x60000041#32).extractLsb' 28 4) := by
  refine ⟨rfl, ?_, ?_⟩
  · unfold IllegalWord
    decide
  · simp [LegalOpcode]

theorem witness_StepDispatchesEveryWord_legal :
    (told 0x10000000#32 State.reset).mode = .idle ∧ ¬ IllegalWord 0x10000000#32 ∧
      LegalOpcode .idle ((0x10000000#32).extractLsb' 28 4) := by
  refine ⟨rfl, ?_, ?_⟩
  · unfold IllegalWord
    decide
  · simp [LegalOpcode]

theorem witness_StepRunsDecodedInstruction_selector :
    ({ State.reset with uopPort := some 0x5000#16 }).uopPort = some 0x5000#16 := rfl

theorem witness_StepRunsDecodedInstruction_code :
    (decoding .next [0x41#8] [0x04#8, 0x20#8]).uopPort = none ∧
      Decoding .next (decoding .next [0x41#8] [0x04#8, 0x20#8]) ∧ DState.next ≠ .emit ∧
      ∃ t, bcRead (decoding .next [0x41#8] [0x04#8, 0x20#8]) = (some 0x042#12, t) :=
  ⟨rfl, ⟨rfl, rfl, rfl⟩, by decide, _, rfl⟩

theorem witness_StepRunsDecodedInstruction_command :
    (told 0x10000000#32 State.reset).uopPort = none ∧ (told 0x10000000#32 State.reset).busy = false ∧
      (told 0x10000000#32 State.reset).cmdq = [0x10000000#32] ∧ decodeCmd 0x10000000#32 = .ok .cStart := by
  decide

theorem witness_StepRunsDecodedInstruction_idle :
    State.reset.uopPort = none ∧ State.reset.busy = false ∧ State.reset.cmdq = [] := by decide

theorem witness_DecodeOfEncodeIsIdentity :
    (Instr.dyn 0xFFE#12).wf = true ∧ (Instr.uopReserved 0xF#4 0xFFF#12).wf = true := by decide

theorem witness_EveryWordSelectsOneMnemonicOrIsIllegal :
    IllegalWord 0x10000001#32 ∧ ¬ IllegalWord 0x2000000A#32 ∧ ¬ IllegalWord 0xD0000000#32 := by
  unfold IllegalWord
  decide

theorem witness_CodeClassesAreTheWholeCodeSpace :
    (0x0FF#12).toNat < 0x100 ∧ 0x100 ≤ (0x100#12).toNat ∧ (0x100#12).toNat ≤ 0xFFE ∧
      0x100 ≤ (0xFFE#12).toNat ∧ (0xFFE#12).toNat ≤ 0xFFE := by decide

theorem witness_ReadWindowFields :
    State.reset.busy = false ∧ State.reset.sbuf = [] ∧ State.reset.curStr.length < 4096 ∧ (filing [0x41#8]).sbuf ≠ [] ∧
      dictElookup (filing [0x41#8]).sbuf (filing [0x41#8]) = some 0x041#12 ∧
      (filing [0x41#8]).sbuf.length < 4096 ∧ 0xA ≤ (0xA#4).toNat ∧ 0xA ≤ (0xF#4).toNat := by decide

theorem witness_OutOfModeCommandRaisesSeqError :
    (inMode .dhdr).busy = false ∧ (inMode .dhdr).mode ≠ .fault ∧ ¬ IllegalWord 0x20000041#32 ∧
      decodeCmd 0x20000041#32 = .ok (.cNameb 0x41#8) ∧
      ¬ LegalOpcode (inMode .dhdr).mode ((0x20000041#32).extractLsb' 28 4) := by
  refine ⟨rfl, by decide, ?_, by decide, ?_⟩
  · unfold IllegalWord
    decide
  · simp [LegalOpcode, inMode]

theorem witness_ReservedOpcodesRaiseIllegalCmd :
    State.reset.busy = false ∧ State.reset.mode ≠ .fault ∧ (inMode .fault).busy = false ∧
      (inMode .fault).mode = .fault := by decide

theorem witness_FaultIsStickyUntilAbort :
    (told 0x10000000#32 (inMode .fault)).mode = .fault ∧ (told 0x10000000#32 (inMode .fault)).busy = false ∧
      (told 0x10000000#32 (inMode .fault)).uopPort = none ∧
      ∀ w ∈ (told 0x10000000#32 (inMode .fault)).cmdq, w ≠ 0xD0000000#32 := by
  refine ⟨rfl, rfl, rfl, fun w h => ?_⟩
  rw [List.mem_singleton.mp h]
  decide

theorem witness_AbortRestoresEveryRegister :
    (inMode .fault).busy = false ∧ (inMode .cfile).busy = false ∧ 0xD0000001#32 ≠ 0xD0000000#32 ∧
      (0xD0000001#32).extractLsb' 28 4 = 0xD#4 := by decide

theorem witness_ResetReadsAsPowerOn : (inMode .fault).busy = false := by decide

theorem witness_NoCommandWhileBusy :
    (naming [0x61#8] false 0#32).busy = true ∧ decodeCmd 0xD0000000#32 = .ok .abort := by decide

/-- CommandHead: a state that is not busy, not in FAULT and in another mode. -/
theorem witness_CommandHead :
    (inMode .dbody).busy = false ∧ (inMode .dbody).mode ≠ .fault ∧ (inMode .dbody).mode ≠ .cfile ∧
      (inMode .cfile).busy = false ∧ (inMode .cfile).mode ≠ .dbody := by decide

theorem witness_CStartOpensCompress : Ready .idle State.reset := ⟨rfl, rfl⟩
theorem witness_DStartOpensDecompress : Ready .idle State.reset := ⟨rfl, rfl⟩

theorem witness_CNamebWritesOneNameByte :
    Ready .chdr (inMode .chdr) ∧ 0x0A#8 = 0x0A#8 ∧ 0x0B#8 ≠ 0x0A#8 := ⟨⟨rfl, rfl⟩, rfl, by decide⟩

theorem witness_CNameendEndsTheName :
    (Ready .chdr (header false 0#32) ∧ (header false 0#32).nameOpen = false) ∧
      (Ready .chdr (header true 0xFFFFFFFF#32) ∧ (header true 0xFFFFFFFF#32).nameOpen = true ∧
        (header true 0xFFFFFFFF#32).nfiles = 0xFFFFFFFF#32) ∧
      Ready .chdr (header true 0xFFFFFFFE#32) ∧ (header true 0xFFFFFFFE#32).nameOpen = true ∧
        (header true 0xFFFFFFFE#32).nfiles ≠ 0xFFFFFFFF#32 :=
  ⟨⟨⟨rfl, rfl⟩, rfl⟩, ⟨⟨rfl, rfl⟩, rfl, rfl⟩, ⟨rfl, rfl⟩, rfl, by decide⟩

theorem witness_CHdrendEndsTheHeader :
    (Ready .chdr (header true 1#32) ∧ (header true 1#32).nameOpen = true) ∧
      (Ready .chdr (header false 0#32) ∧ (header false 0#32).nameOpen = false ∧
        (header false 0#32).nfiles = 0#32) ∧
      Ready .chdr (header false 1#32) ∧ (header false 1#32).nameOpen = false ∧
        (header false 1#32).nfiles ≠ 0#32 :=
  ⟨⟨⟨rfl, rfl⟩, rfl⟩, ⟨⟨rfl, rfl⟩, rfl, rfl⟩, ⟨rfl, rfl⟩, rfl, by decide⟩

theorem witness_CFbeginStartsASegment :
    (Ready .cbody (between .cbody 1#32 1#32) ∧
        (between .cbody 1#32 1#32).nfiles.toNat ≤ (between .cbody 1#32 1#32).fidx.toNat) ∧
      Ready .cbody (between .cbody 1#32 0#32) ∧
        (between .cbody 1#32 0#32).fidx.toNat < (between .cbody 1#32 0#32).nfiles.toNat :=
  ⟨⟨⟨rfl, rfl⟩, by decide⟩, ⟨rfl, rfl⟩, by decide⟩

theorem witness_DFileAcceptsASegment :
    (Ready .dbody (between .dbody 1#32 1#32) ∧
        (between .dbody 1#32 1#32).nfiles.toNat ≤ (between .dbody 1#32 1#32).fidx.toNat) ∧
      Ready .dbody (between .dbody 1#32 0#32) ∧
        (between .dbody 1#32 0#32).fidx.toNat < (between .dbody 1#32 0#32).nfiles.toNat :=
  ⟨⟨⟨rfl, rfl⟩, by decide⟩, ⟨rfl, rfl⟩, by decide⟩

theorem witness_CDataExtendsOrEmits_first : Ready .cfile (filing []) ∧ (filing []).sbuf = [] :=
  ⟨⟨rfl, rfl⟩, rfl⟩

theorem witness_CDataExtendsOrEmits_extends :
    Ready .cfile (withAB (filing [0x41#8])) ∧ (withAB (filing [0x41#8])).sbuf ≠ [] ∧
      dictElookup ((withAB (filing [0x41#8])).sbuf ++ [0x42#8]) (withAB (filing [0x41#8])) = some 256#12 :=
  ⟨⟨rfl, rfl⟩, by decide, by decide⟩

/-- At the reset: NEXT = 4095. -/
theorem witness_CDataExtendsOrEmits_emits :
    let s := { filing [0x41#8] with nextCode := 4095#12 }
    Ready .cfile s ∧ s.sbuf ≠ [] ∧ dictElookup (s.sbuf ++ [0x42#8]) s = none ∧
      dictElookup s.sbuf s = some 0x041#12 ∧ s.sbuf.length ≤ 3840 ∧ 256 ≤ s.nextCode.toNat :=
  ⟨⟨rfl, rfl⟩, by decide, by decide, by decide, by decide, by decide⟩

theorem witness_CFendFlushesMatchAndSentinel :
    (Ready .cfile (filing []) ∧ (filing []).sbuf = []) ∧ Ready .cfile (filing [0x41#8]) ∧
      (filing [0x41#8]).sbuf ≠ [] ∧
      dictElookup (filing [0x41#8]).sbuf (filing [0x41#8]) = some 0x041#12 :=
  ⟨⟨⟨rfl, rfl⟩, rfl⟩, ⟨rfl, rfl⟩, by decide, by decide⟩

theorem witness_CFinishClosesCompress :
    (Ready .cbody (between .cbody 1#32 0#32) ∧
        (between .cbody 1#32 0#32).fidx ≠ (between .cbody 1#32 0#32).nfiles) ∧
      Ready .cbody (between .cbody 1#32 1#32) ∧
        (between .cbody 1#32 1#32).fidx = (between .cbody 1#32 1#32).nfiles :=
  ⟨⟨⟨rfl, rfl⟩, by decide⟩, ⟨rfl, rfl⟩, rfl⟩

theorem witness_DFinishClosesDecompress :
    (Ready .dbody (between .dbody 1#32 0#32) ∧
        (between .dbody 1#32 0#32).fidx ≠ (between .dbody 1#32 0#32).nfiles) ∧
      Ready .dbody (between .dbody 1#32 1#32) ∧
        (between .dbody 1#32 1#32).fidx = (between .dbody 1#32 1#32).nfiles :=
  ⟨⟨⟨rfl, rfl⟩, by decide⟩, ⟨rfl, rfl⟩, rfl⟩

/-- The common premises of the micro-step, and one state for each of its six cases. -/
theorem witness_DNameReadsOneHeaderLine :
    Ready .dhdr (inMode .dhdr) ∧
      (∀ s ∈ [naming [] false 0#32, naming [0x0B#8] false 0#32, naming [0x0A#8] true 0xFFFFFFFF#32,
          naming [0x0A#8] true 0xFFFFFFFE#32, naming [0x0A#8] false 0#32, naming [0x0A#8] false 1#32],
        s.uopPort = none ∧ s.busy = true ∧ s.mode = .dhdr) ∧
      0x0B#8 ≠ 0x0A#8 ∧ (naming [0x0A#8] true 0xFFFFFFFE#32).nfiles ≠ 0xFFFFFFFF#32 ∧
      (naming [0x0A#8] false 1#32).nfiles ≠ 0#32 :=
  ⟨⟨rfl, rfl⟩, by decide, by decide, by decide, by decide⟩

theorem witness_DsFirst_exhausted :
    (decoding .first [] [0x04#8]).uopPort = none ∧ Decoding .first (decoding .first [] [0x04#8]) ∧
      256 ≤ (decoding .first [] [0x04#8]).nextCode.toNat ∧
      ∃ t, bcRead (decoding .first [] [0x04#8]) = (none, t) :=
  ⟨rfl, ⟨rfl, rfl, rfl⟩, by decide, _, rfl⟩

theorem witness_DsFirst_sentinel :
    Decoding .first (decoding .first [] [0xFF#8, 0xF0#8]) ∧
      ∃ t, bcRead (decoding .first [] [0xFF#8, 0xF0#8]) = (some 0xFFF#12, t) :=
  ⟨⟨rfl, rfl, rfl⟩, _, rfl⟩

/-- DEC-3: the first code is 256. -/
theorem witness_DsFirst_miss :
    Decoding .first (decoding .first [] [0x10#8, 0x0F#8]) ∧
      (∃ t, bcRead (decoding .first [] [0x10#8, 0x0F#8]) = (some 0x100#12, t)) ∧
      0x100#12 ≠ 0xFFF#12 ∧ (decoding .first [] [0x10#8, 0x0F#8]).nextCode.toNat ≤ (0x100#12).toNat :=
  ⟨⟨rfl, rfl, rfl⟩, ⟨_, rfl⟩, by decide, by decide⟩

theorem witness_DsFirst_literal :
    Decoding .first (decoding .first [] [0x0F#8, 0xF0#8]) ∧
      (∃ t, bcRead (decoding .first [] [0x0F#8, 0xF0#8]) = (some 0x0FF#12, t) ∧
        stringOf (0x0FF#12).toNat t = some [0xFF#8]) ∧
      (0x0FF#12).toNat < (decoding .first [] [0x0F#8, 0xF0#8]).nextCode.toNat ∧ 0x0FF#12 ≠ 0xFFF#12 :=
  ⟨⟨rfl, rfl, rfl⟩, ⟨_, rfl, by decide⟩, by decide, by decide⟩

theorem witness_DsEmitWritesTheCurrentString :
    (decoding .emit [0x41#8] []).uopPort = none ∧ Decoding .emit (decoding .emit [0x41#8] []) :=
  ⟨rfl, rfl, rfl, rfl⟩

theorem witness_SentEndsTheSegment :
    Decoding .first (decoding .first [] []) ∧ Decoding .next (decoding .next [0x41#8] []) :=
  ⟨⟨rfl, rfl, rfl⟩, rfl, rfl, rfl⟩

/-- A current string at each side of the length bound. -/
theorem witness_LitResolvesToItsByte :
    Decoding .first (decoding .first [] []) ∧
      (∀ n, Decoding .next (decoding .next (List.replicate n 0x61#8) [])) ∧
      (decoding .next (List.replicate 3840 0x61#8) []).curStr.length ≤ 3840 ∧
      3841 ≤ (decoding .next (List.replicate 3841 0x61#8) []).curStr.length ∧
      256 ≤ (decoding .next [] []).nextCode.toNat := by
  refine ⟨⟨rfl, rfl, rfl⟩, fun n => ⟨rfl, rfl, rfl⟩, ?_, ?_, by decide⟩
  · show (List.replicate 3840 0x61#8).length ≤ 3840
    rw [List.length_replicate]
  · show 3841 ≤ (List.replicate 3841 0x61#8).length
    rw [List.length_replicate]

/-- A stored entry, the KwKwK code and a miss, at NEXT = 258; and the first code of a segment. -/
theorem witness_DynResolvesByPosition :
    let s := withAB (decoding .next [0x41#8, 0x42#8] [])
    s.entry.wf = true ∧ Decoding .next s ∧ s.curStr ≠ [] ∧ 256 ≤ s.nextCode.toNat ∧ s.curStr.length ≤ 3840 ∧
      (257#12).toNat < (allocated s).toNat ∧ memRead 257 s.entry = [0x42#8, 0x41#8] ∧
      258#12 = allocated s ∧ (allocated s).toNat < (259#12).toNat ∧
      Decoding .first (decoding .first [] []) ∧ (decoding .first [] []).nextCode = 256#12 :=
  ⟨by decide, ⟨rfl, rfl, rfl⟩, by decide, by decide, by decide, by decide, by decide, by decide, by decide,
    ⟨rfl, rfl, rfl⟩, rfl⟩

/-- The code 256 with the epoch full and the longest current string: ENTRY_TOO_LONG after the reset. -/
theorem witness_DynResolvesByPosition_long :
    let s := { decoding .next (List.replicate 3841 0x61#8) [] with nextCode := 4095#12 }
    Decoding .next s ∧ 3841 ≤ s.curStr.length ∧ (256#12).toNat ≤ (allocated s).toNat ∧
      ¬ (256#12).toNat < (allocated s).toNat := by
  refine ⟨⟨rfl, rfl, rfl⟩, ?_, ?_, ?_⟩
  · show 3841 ≤ (List.replicate 3841 0x61#8).length
    rw [List.length_replicate]
  · show (256#12).toNat ≤ (256#12).toNat
    exact Nat.le_refl _
  · show ¬ (256#12).toNat < (256#12).toNat
    exact Nat.lt_irrefl _

/-- No code, and exactly twelve bits, on the input. -/
theorem witness_BcReadTakesTwelveBits :
    (State.reset.rcnt.toNat ≤ 11 ∧ (inputBits State.reset).length < 12 ∧
        State.reset.rbits.toNat < 2 ^ State.reset.rcnt.toNat) ∧
      ({ State.reset with rcnt := 4#4, ain := [0xFF#8] }).rcnt.toNat ≤ 11 ∧
      12 ≤ (inputBits { State.reset with rcnt := 4#4, ain := [0xFF#8] }).length ∧
      ({ State.reset with rcnt := 11#4, ain := [0xFF#8] }).rcnt.toNat ≤ 11 ∧
      12 ≤ (inputBits { State.reset with rcnt := 11#4, ain := [0xFF#8] }).length := by decide

theorem witness_DictResetAndAlloc :
    ({ State.reset with nextCode := 4095#12 }).nextCode = 4095#12 ∧
      ({ State.reset with nextCode := 4094#12 }).nextCode ≠ 4095#12 := by decide

theorem witness_ElookupFindsTheLowestCode_literal :
    ({ State.reset with strBus := [0x41#8] }).entry.wf = true ∧
      ({ State.reset with strBus := [0x41#8] }).strBus ≠ [] := by decide

theorem witness_ElookupFindsTheLowestCode_found :
    let s := { withAB State.reset with strBus := [0x41#8, 0x42#8] }
    s.entry.wf = true ∧ s.strBus ≠ [] ∧ 2 ≤ s.strBus.length ∧ Holds s (256#12).toNat s.strBus ∧
      ∀ d, d < (256#12).toNat → ¬ Holds s d s.strBus :=
  ⟨by decide, by decide, by decide, ⟨by decide, by decide, by decide⟩,
    fun _ hd h => Nat.not_lt.mpr h.1 hd⟩

theorem witness_ElookupFindsTheLowestCode_absent :
    let s := { State.reset with strBus := [0x41#8, 0x42#8] }
    s.entry.wf = true ∧ s.strBus ≠ [] ∧ 2 ≤ s.strBus.length ∧ ∀ d, ¬ Holds s d s.strBus :=
  ⟨by decide, by decide, by decide, fun _ h => Nat.lt_irrefl _ (Nat.lt_of_le_of_lt h.1 h.2.1)⟩

theorem witness_DlookupAnswersTheString :
    stringOf 255 (withAB State.reset) = some [0xFF#8] ∧
      stringOf 257 (withAB State.reset) = some [0x42#8, 0x41#8] ∧
      stringOf 258 (withAB State.reset) = none := by decide

theorem witness_InsertsStoreTheStringAtNext :
    let s := { State.reset with nextCode := 4094#12, strBus := [0x41#8, 0x42#8] }
    4094#12 = s.nextCode ∧ 256 ≤ (4094#12).toNat ∧ (4094#12).toNat ≤ 4094 ∧ 2 ≤ s.strBus.length ∧
      s.strBus.length ≤ 3841 ∧ s.entry.wf = true := by decide

theorem witness_ModelStopsByName :
    ¬ (257#12 = State.reset.nextCode ∧ 256 ≤ (257#12).toNat ∧ (257#12).toNat ≤ 4094 ∧
        2 ≤ State.reset.strBus.length ∧ State.reset.strBus.length ≤ 3841) ∧
      ¬ (Decoding .first State.reset ∨ Decoding .next State.reset) ∧ 0xA ≤ (0xA#4).toNat := by
  refine ⟨by decide, ?_, by decide⟩
  rintro (⟨h, _⟩ | ⟨h, _⟩)
  · exact Bool.noConfusion h
  · exact Bool.noConfusion h

/-! ### States with the invariant -/

/-- The invariant of a state whose epoch is empty and whose S has at most one byte: the facts that are left
are closed, so that a concrete state decides them. -/
theorem inv_of_empty_epoch {s : State} (hn : s.nextCode = 256#12) (hs : s.sbuf.length ≤ 1)
    (h : s.entry.wf = true ∧ ((s.wcnt = 0#3 ∨ s.wcnt = 4#3) ∧ s.wbits.toNat < 2 ^ s.wcnt.toNat) ∧
      (s.mode = .chdr → s.wcnt = 0#3) ∧
      ((s.rcnt = 0#4 ∨ s.rcnt = 4#4 ∨ s.rcnt = 8#4) ∧ s.rbits.toNat < 2 ^ s.rcnt.toNat) ∧
      s.fidx.toNat ≤ s.nfiles.toNat ∧
      (s.mode = .cfile ∨ s.mode = .dfile → s.fidx.toNat < s.nfiles.toNat) ∧
      (s.mode.inBody = true → s.nfiles ≠ 0#32) ∧
      (s.busy = true → s.mode = .dhdr ∨ s.mode = .dfile) ∧ (s.mode = .dfile → s.busy = true) ∧
      (s.sbuf ≠ [] → s.mode = .cfile ∨ s.mode = .fault) ∧ s.curStr.length ≤ 3841 ∧
      (s.mode = .dfile → s.dstate ≠ .first → s.curStr ≠ []) ∧
      (s.mode = .fault ↔ s.fcode ≠ .none) ∧
      (s.fcode = .none → s.fcmd = 0#32 ∧ s.finfo = FInfo.zero) ∧
      (s.nameOpen = true → s.mode = .chdr ∨ s.mode = .fault) ∧
      (s.lineOpen = true → (s.mode = .dhdr ∧ s.busy = true) ∨ s.mode = .fault) ∧ s.uopPort = none) :
    Inv s := by
  obtain ⟨h1, h2, h3, h4, h5, h6, h7, h8, h9, h10, h11, h12, h13, h14, h15, h16, h17⟩ := h
  refine ⟨h1, ?_, ?_, h2, h3, h4, h5, h6, h7, h8, h9, h10, ?_, h11, h12, ?_, h13, h14, h15, h16, h17⟩
  · rw [hn]
    decide
  · intro c hc hlt
    rw [hn] at hlt
    exact absurd hlt (Nat.not_lt.mpr hc)
  · intro k hk hle
    omega
  · intro _ _
    rw [hn]
    rfl

theorem inv_reset : Inv State.reset := inv_of_empty_epoch rfl (by decide) (by decide)
theorem inv_told : Inv (told 0x10000000#32 State.reset) := inv_of_empty_epoch rfl (by decide) (by decide)
theorem inv_filing : Inv (told 0x60000042#32 (filing [0x41#8])) :=
  inv_of_empty_epoch rfl (by decide) (by decide)
theorem inv_fend : Inv (told 0x70000000#32 (filing [0x41#8])) :=
  inv_of_empty_epoch rfl (by decide) (by decide)
theorem inv_finish : Inv (told 0x80000000#32 (between .cbody 1#32 1#32)) :=
  inv_of_empty_epoch rfl (by decide) (by decide)
theorem inv_decoding : Inv (decoding .next [0x41#8] [0x04#8, 0x20#8]) :=
  inv_of_empty_epoch rfl (by decide) (by decide)
theorem inv_kwkwk : Inv (decoding .next [0x41#8] [0x10#8, 0x00#8]) :=
  inv_of_empty_epoch rfl (by decide) (by decide)
theorem inv_above_next : Inv (decoding .next [0x41#8] [0x10#8, 0x10#8]) :=
  inv_of_empty_epoch rfl (by decide) (by decide)
theorem inv_sentinel : Inv (decoding .next [0x41#8] [0xFF#8, 0xF0#8]) :=
  inv_of_empty_epoch rfl (by decide) (by decide)
theorem inv_exhausted : Inv (decoding .next [0x41#8] []) := inv_of_empty_epoch rfl (by decide) (by decide)
theorem inv_longest : Inv (decoding .next (List.replicate 3841 0x61#8) [0x10#8, 0x00#8]) := by
  have hl : (decoding .next (List.replicate 3841 0x61#8) [0x10#8, 0x00#8]).curStr.length = 3841 :=
    List.length_replicate
  refine inv_of_empty_epoch rfl (by decide) ?_
  refine ⟨rfl, by decide, by decide, by decide, by decide, fun _ => by decide, fun _ => by decide,
    fun _ => .inr rfl, fun _ => rfl, ?_, Nat.le_of_eq hl, ?_, by decide, fun _ => ⟨rfl, rfl⟩, by decide,
    by decide, rfl⟩
  · intro h
    exact absurd rfl h
  · intro _ _ h
    rw [h] at hl
    exact absurd hl (by decide)

theorem witness_DsNextGrowsTheDictionary_exhausted :
    Inv (decoding .next [0x41#8] []) ∧ Decoding .next (decoding .next [0x41#8] []) ∧
      ∃ t, bcRead (decoding .next [0x41#8] []) = (none, t) := ⟨inv_exhausted, ⟨rfl, rfl, rfl⟩, _, rfl⟩

theorem witness_DsNextGrowsTheDictionary_sentinel :
    Inv (decoding .next [0x41#8] [0xFF#8, 0xF0#8]) ∧
      ∃ t, bcRead (decoding .next [0x41#8] [0xFF#8, 0xF0#8]) = (some 0xFFF#12, t) := ⟨inv_sentinel, _, rfl⟩

/-- A code below n, the code n, and a code above n, with n = 256. -/
theorem witness_DsNextGrowsTheDictionary_code :
    (Inv (decoding .next [0x41#8] [0x04#8, 0x20#8]) ∧
        ∃ t, bcRead (decoding .next [0x41#8] [0x04#8, 0x20#8]) = (some 0x042#12, t)) ∧
      (Inv (decoding .next [0x41#8] [0x10#8, 0x00#8]) ∧
        ∃ t, bcRead (decoding .next [0x41#8] [0x10#8, 0x00#8]) = (some 0x100#12, t)) ∧
      Inv (decoding .next [0x41#8] [0x10#8, 0x10#8]) ∧
        ∃ t, bcRead (decoding .next [0x41#8] [0x10#8, 0x10#8]) = (some 0x101#12, t) :=
  ⟨⟨inv_decoding, _, rfl⟩, ⟨inv_kwkwk, _, rfl⟩, inv_above_next, _, rfl⟩

/-- The longest current string. -/
theorem witness_DsNextGrowsTheDictionary_long :
    Inv (decoding .next (List.replicate 3841 0x61#8) [0x10#8, 0x00#8]) ∧
      (∃ t, bcRead (decoding .next (List.replicate 3841 0x61#8) [0x10#8, 0x00#8]) = (some 0x100#12, t)) ∧
      3841 < (List.replicate 3841 0x61#8).length + 1 := by
  refine ⟨inv_longest, ⟨_, rfl⟩, ?_⟩
  rw [List.length_replicate]
  decide

theorem witness_StepKeepsTheInvariant :
    Inv (told 0x60000042#32 (filing [0x41#8])) ∧ ∃ t, step (told 0x60000042#32 (filing [0x41#8])) = .next t :=
  ⟨inv_filing, _, rfl⟩

theorem witness_StepNeverStopsUnderTheInvariant : Inv (told 0x60000042#32 (filing [0x41#8])) := inv_filing

theorem witness_MatchIsBoundedAndPresent :
    Inv (told 0x60000042#32 (filing [0x41#8])) ∧ (told 0x60000042#32 (filing [0x41#8])).sbuf ≠ [] :=
  ⟨inv_filing, by decide⟩

theorem witness_StepKeepsEntriesDistinct :
    Inv (told 0x60000042#32 (filing [0x41#8])) ∧ InvDistinct (told 0x60000042#32 (filing [0x41#8])) ∧
      ∃ t, step (told 0x60000042#32 (filing [0x41#8])) = .next t ∧ t.mode.compressing = true :=
  ⟨inv_filing, fun _ _ _ _ h _ => absurd (Nat.lt_of_le_of_lt h.1 h.2.1) (Nat.lt_irrefl _), _, rfl, rfl⟩

theorem witness_HostMovesKeepTheInvariant :
    State.reset.busy = false ∧ Inv State.reset ∧ (hostIssue 0x10000000#32 State.reset).isSome = true ∧
      (naming [] false 0#32).busy = true := ⟨rfl, inv_reset, rfl, rfl⟩

theorem witness_PortsAreAppendOnlyAndConsumeOnly :
    ∃ t, step (naming [0x61#8] false 0#32) = .next t ∧ t.ain = [] ∧ t.dout = [⟨.nameb, 0x61#8⟩] :=
  ⟨_, rfl, by decide⟩

theorem witness_PortWriters :
    (∃ t, exec (.cNameb 0x61#8) (inMode .chdr) = .next t ∧ t.aout ≠ (inMode .chdr).aout) ∧
      (∃ t, exec .sent (decoding .first [] []) = .next t ∧ t.dout ≠ (decoding .first [] []).dout) ∧
      ∃ t, exec .bcRead (naming [0x61#8] false 0#32) = .next t ∧ t.ain ≠ (naming [0x61#8] false 0#32).ain :=
  ⟨⟨_, rfl, by decide⟩, ⟨_, rfl, by decide⟩, _, rfl, by decide⟩

theorem witness_OnlyFaultEntryAndAbortWriteFaultRegisters :
    (∃ t, exec (.cNameb 0x0A#8) (inMode .chdr) = .next t ∧ t.fcode ≠ (inMode .chdr).fcode) ∧
      (∃ t, step (told 0x10000001#32 State.reset) = .next t ∧ t.fcmd ≠ State.reset.fcmd) ∧
      (∃ t, step (naming [] false 0#32) = .next t ∧ t.fcode ≠ (naming [] false 0#32).fcode) ∧
      (∃ t, step (decoding .first [] []) = .next t ∧ t.finfo ≠ (decoding .first [] []).finfo) ∧
      ∃ t, step (told 0xD0000000#32 { inMode .fault with fcode := .decodeMiss }) = .next t ∧
        t.fcode ≠ .decodeMiss :=
  ⟨⟨_, rfl, by decide⟩, ⟨_, rfl, by decide⟩, ⟨_, rfl, by decide⟩, ⟨_, rfl, by decide⟩, _, rfl, by decide⟩

theorem witness_CounterWriters :
    (∃ t, exec .cNameend (header true 0#32) = .next t ∧ t.nfiles ≠ (header true 0#32).nfiles) ∧
      ∃ t, exec .cFend (filing []) = .next t ∧ t.fidx ≠ (filing []).fidx :=
  ⟨⟨_, rfl, by decide⟩, _, rfl, by decide⟩

theorem witness_BufferAndDictionaryWriters :
    microOperation (.cData 0x42#8) = false ∧ microOperation .dStart = false ∧
      (∃ t, exec (.cData 0x42#8) (filing [0x41#8]) = .next t ∧
        (t.wbits, t.wcnt) ≠ ((filing [0x41#8]).wbits, (filing [0x41#8]).wcnt) ∧
        t.nextCode ≠ (filing [0x41#8]).nextCode) ∧
      ∃ t, exec .dStart { State.reset with rcnt := 4#4 } = .next t ∧ t.rcnt ≠ 4#4 :=
  ⟨rfl, rfl, ⟨_, rfl, by decide⟩, _, rfl, by decide⟩

theorem witness_OnlyTheAllocatedEntryIsWritten :
    ∃ t, exec (.cData 0x42#8) (filing [0x41#8]) = .next t ∧
      memRead 256 t.entry ≠ memRead 256 (filing [0x41#8]).entry := ⟨_, rfl, by decide⟩

theorem witness_SegmentEndsAdvanceTheIndex :
    (Inv (told 0x70000000#32 (filing [0x41#8])) ∧
        ∃ t, step (told 0x70000000#32 (filing [0x41#8])) = .next t ∧ t.mode = .cbody) ∧
      (Inv (decoding .next [0x41#8] [0xFF#8, 0xF0#8]) ∧
        ∃ t, step (decoding .next [0x41#8] [0xFF#8, 0xF0#8]) = .next t ∧ t.mode = .dbody) ∧
      Inv (told 0x80000000#32 (between .cbody 1#32 1#32)) ∧
        ∃ t, step (told 0x80000000#32 (between .cbody 1#32 1#32)) = .next t ∧ t.mode = .idle ∧
          (told 0x80000000#32 (between .cbody 1#32 1#32)).cmdq.head? = some 0x80000000#32 :=
  ⟨⟨inv_fend, _, rfl, rfl⟩, ⟨inv_sentinel, _, rfl, rfl⟩, inv_finish, _, rfl, rfl, rfl⟩

theorem witness_BodyLength : [0x041#12, 0x042#12].length % 2 = 0 := by decide

theorem witness_WritesProduceThePackedBody :
    State.reset.wcnt = 0#3 ∧ [0x041#12, 0x042#12, 0xFFF#12].length % 2 = 1 := by decide

theorem witness_ReadsReturnTheWrittenCodes :
    State.reset.rcnt = 0#4 ∧ State.reset.rbits = 0#12 ∧ [0x041#12, 0x042#12].length % 2 = 0 ∧
      ({ State.reset with ain := packCodes [0x041#12, 0x042#12] }).ain = packCodes [0x041#12, 0x042#12] ∧
      packCodes ([0x041#12, 0x042#12] ++ [0xFFF#12]) = [0x04#8, 0x10#8, 0x42#8, 0xFF#8] := by decide

theorem witness_AppendedByteChangesTheFinalRead :
    ({ State.reset with ain := [0xFF#8, 0xEF#8] }).rcnt = 0#4 ∧
      ({ State.reset with ain := [0xFF#8, 0xEF#8] }).ain = [0xFF#8, 0xEF#8] ∧
      0xF0 ≤ (0xF0#8).toNat ∧ ¬ 0xF0 ≤ (0xEF#8).toNat := by decide

/-- The second state has a stale entry, other buffers and another S. -/
theorem witness_CompressDoesNotDependOnThePast :
    let is := [Instr.cNameb 0x66#8, .cNameend, .cHdrend, .cFbegin, .cData 0x41#8, .cData 0x42#8, .cFend,
      .cFinish]
    let s₂ := { withAB State.reset with wcnt := 4#3, sbuf := [0x41#8] }
    (∀ i ∈ is, compressInstr i = true) ∧ Ready .idle State.reset ∧ Ready .idle s₂ ∧
      State.reset.entry.wf = true ∧ s₂.entry.wf = true ∧
      (runInstrs (.cStart :: is) State.reset).isSome = true ∧ SameFault State.reset s₂ ∧
      State.reset.lineOpen = s₂.lineOpen ∧ State.reset.dstate = s₂.dstate :=
  ⟨by decide, ⟨rfl, rfl⟩, ⟨rfl, rfl⟩, rfl, by decide, by decide, ⟨rfl, rfl, rfl⟩, rfl, rfl⟩

/-- The empty file "e" of SRC-2. -/
theorem witness_DecompressDoesNotDependOnThePast :
    let ws := [0xA0000000#32, 0xA0000000#32, 0xB0000000#32, 0xC0000000#32]
    let s := { State.reset with ain := [0x65#8, 0x0A#8, 0x0A#8, 0xFF#8], cmdq := 0x90000000#32 :: ws }
    (∀ w ∈ ws, w = 0xA0000000#32 ∨ w = 0xB0000000#32 ∨ w = 0xC0000000#32) ∧ Ready .idle s ∧
      Ready .idle (withAB s) ∧ s.uopPort = none ∧ (withAB s).uopPort = none ∧ s.ain = (withAB s).ain ∧
      (withAB s).cmdq = 0x90000000#32 :: ws ∧ SameFault s (withAB s) ∧ s.nameOpen = (withAB s).nameOpen ∧
      s.sbuf = (withAB s).sbuf ∧
      ∃ t : State, Host.Core.run Sys2Proof.core (8 + 1) s = .next t ∧ t.mode = .idle :=
  ⟨by simp, ⟨rfl, rfl⟩, ⟨rfl, rfl⟩, rfl, rfl, rfl, rfl, ⟨rfl, rfl, rfl⟩, rfl, rfl, _, rfl, rfl⟩

theorem witness_DecompressInvertsCompress :
    let files : List (Bytes × Bytes) := [([0x66#8], [0x41#8, 0x42#8])]
    files ≠ [] ∧ files.length < 2 ^ 32 ∧ (∀ f ∈ files, validName f.1 = true) ∧ Inv State.reset ∧
      State.reset.mode = .idle := ⟨by decide, by decide, by decide, inv_reset, rfl⟩

end Sys2Proof.Tests
end

/-! The register read window (10_state.md R27): each register as the sum of its fields, and from that sum each
field at its bit position. -/

namespace Sys2Proof.Proofs.ReadWindow

open Sys2Proof.Machine

theorem append_toNat {m n : Nat} (x : BitVec m) (y : BitVec n) :
    (x ++ y).toNat = x.toNat * 2 ^ n + y.toNat := by
  rw [BitVec.toNat_append, ← Nat.shiftLeft_add_eq_or_of_lt y.isLt, Nat.shiftLeft_eq]

@[simp] theorem flagBit_toNat (b : Bool) : (flagBit b).toNat = b.toNat := BitVec.toNat_ofBool b

/-- Bit `i` of a register, read off its number. -/
theorem getLsbD_of_div {x : Word} {i : Nat} {b : Bool} (h : x.toNat / 2 ^ i % 2 = b.toNat) :
    x.getLsbD i = b := by
  rw [← BitVec.testBit_toNat, Nat.testBit_eq_decide_div_mod_eq, h]
  cases b <;> rfl

/-- The field of width `n` at bit `i` of a register, read off its number. -/
theorem extractLsb'_of_div {x : Word} {i n : Nat} {y : BitVec n} (h : x.toNat / 2 ^ i % 2 ^ n = y.toNat) :
    x.extractLsb' i n = y :=
  BitVec.eq_of_toNat_eq (by rw [BitVec.extractLsb'_toNat, Nat.shiftRight_eq_div_pow, h])

/-! ### The registers as numbers -/

theorem statusReg_toNat (s : State) :
    (statusReg s).toNat = s.mode.bits.toNat + s.busy.toNat * 2 ^ 3 + s.fcode.bits.toNat * 2 ^ 4 +
      s.tailDrop.toNat * 2 ^ 8 + s.truncSent.toNat * 2 ^ 9 + s.nameOpen.toNat * 2 ^ 10 +
      (sValid s).toNat * 2 ^ 11 + s.lineOpen.toNat * 2 ^ 12 + s.dstate.bits.toNat * 2 ^ 13 := by
  rw [statusReg, append_toNat]
  simp only [append_toNat, flagBit_toNat, BitVec.toNat_ofNat, Nat.zero_mod]
  omega

theorem dictReg_eq (s : State) : dictReg s = s.nextCode.setWidth 32 := by
  have hn := s.nextCode.isLt
  apply BitVec.eq_of_toNat_eq
  rw [dictReg, append_toNat, BitVec.toNat_setWidth, Nat.mod_eq_of_lt (by omega)]
  simp

theorem wbufReg_toNat (s : State) : (wbufReg s).toNat = s.wbits.toNat + s.wcnt.toNat * 2 ^ 8 := by
  rw [wbufReg, append_toNat]
  simp only [append_toNat, BitVec.toNat_ofNat, Nat.zero_mod]
  omega

theorem rbufReg_toNat (s : State) : (rbufReg s).toNat = s.rbits.toNat + s.rcnt.toNat * 2 ^ 12 := by
  rw [rbufReg, append_toNat]
  simp only [append_toNat, BitVec.toNat_ofNat, Nat.zero_mod]
  omega

theorem encsReg_toNat {s : State} (h : s.sbuf.length < 4096) :
    (encsReg s).toNat = (sCode s).toNat + s.sbuf.length * 2 ^ 12 := by
  rw [encsReg, append_toNat]
  simp only [append_toNat, BitVec.toNat_ofNat, Nat.zero_mod]
  omega

theorem deccurReg_toNat {s : State} (h : s.curStr.length < 4096) :
    (deccurReg s).toNat = s.curCode.toNat + s.curStr.length * 2 ^ 12 := by
  rw [deccurReg, append_toNat]
  simp only [append_toNat, BitVec.toNat_ofNat, Nat.zero_mod]
  omega

theorem finfoReg_toNat (s : State) :
    (finfoReg s).toNat = s.finfo.fval.toNat + s.finfo.frcnt.toNat * 2 ^ 12 +
      s.finfo.fvalValid.toNat * 2 ^ 16 + s.finfo.frcntValid.toNat * 2 ^ 17 := by
  rw [finfoReg, append_toNat]
  simp only [append_toNat, flagBit_toNat, BitVec.toNat_ofNat, Nat.zero_mod]
  omega

/-! ### The fields -/

theorem sValid_iff (s : State) : sValid s = true ↔ s.sbuf ≠ [] := by simp [sValid]

/-- STATUS shows each of its fields at the position of R27, and 0 above them. -/
theorem statusReg_fields (s : State) :
    (statusReg s).extractLsb' 0 3 = s.mode.bits ∧
    (statusReg s).getLsbD 3 = s.busy ∧
    (statusReg s).extractLsb' 4 4 = s.fcode.bits ∧
    (statusReg s).getLsbD 8 = s.tailDrop ∧ (statusReg s).getLsbD 9 = s.truncSent ∧
    (statusReg s).getLsbD 10 = s.nameOpen ∧ (statusReg s).getLsbD 11 = sValid s ∧
    (statusReg s).getLsbD 12 = s.lineOpen ∧
    (statusReg s).extractLsb' 13 2 = s.dstate.bits ∧
    (statusReg s).extractLsb' 15 17 = 0#17 := by
  have hsum := statusReg_toNat s
  have hmode := s.mode.bits.isLt
  have hfcode := s.fcode.bits.isLt
  have hdstate := s.dstate.bits.isLt
  have hbusy := s.busy.toNat_le
  have htail := s.tailDrop.toNat_le
  have htrunc := s.truncSent.toNat_le
  have hname := s.nameOpen.toNat_le
  have hvalid := (sValid s).toNat_le
  have hline := s.lineOpen.toNat_le
  refine ⟨extractLsb'_of_div ?_, getLsbD_of_div ?_, extractLsb'_of_div ?_, getLsbD_of_div ?_,
    getLsbD_of_div ?_, getLsbD_of_div ?_, getLsbD_of_div ?_, getLsbD_of_div ?_, extractLsb'_of_div ?_,
    extractLsb'_of_div ?_⟩
  case refine_10 =>
    show _ = 0
    omega
  all_goals omega

/-- ENCS reads 0 while S is empty. -/
theorem encsReg_empty {s : State} (h : s.sbuf = []) : encsReg s = 0#32 := by
  apply BitVec.eq_of_toNat_eq
  rw [encsReg_toNat (by rw [h]; decide), sCode, if_pos h, h]
  rfl

/-- S_CODE is the code of S in the current epoch. -/
theorem sCode_of_dictElookup {s : State} {c : Code} (hs : s.sbuf ≠ []) (h : dictElookup s.sbuf s = some c) :
    sCode s = c := by
  rw [sCode, if_neg hs, h]

/-- The addresses 0xA to 0xF read 0. -/
theorem regRead_unlisted (s : State) : ∀ a : BitVec 4, 0xA ≤ a.toNat → regRead a s = 0#32 := by
  intro a ha
  have hlt := a.isLt
  unfold regRead
  split
  case h_11 => rfl
  all_goals omega

theorem hostRegRead_ready {s : State} (h : s.busy = false) (a : BitVec 4) :
    hostRegRead a s = some (regRead a s) := by
  rw [hostRegRead, h]
  rfl

/-- Settles O8: the number tables are the model's own; each register's fields are read off the sum that
the register is. -/
theorem readWindowFields : Obligations.ReadWindowFields := by
  unfold Obligations.ReadWindowFields
  refine ⟨by decide, by decide, by decide, by decide, fun s => ?_⟩
  obtain ⟨hmode, hbusy, hfcode, htail, htrunc, hname, hvalid, hline, hdstate, hrest⟩ := statusReg_fields s
  exact ⟨fun a h => hostRegRead_ready h a, hmode, hbusy, hfcode, htail, htrunc, hname,
    (Bool.eq_iff_iff.mp hvalid).trans (sValid_iff s), hline, hdstate, hrest, rfl, rfl,
    dictReg_eq s, wbufReg_toNat s, rbufReg_toNat s, encsReg_empty,
    fun c hs hc hl => sCode_of_dictElookup hs hc ▸ encsReg_toNat hl, deccurReg_toNat, rfl, finfoReg_toNat s,
    regRead_unlisted s⟩

end Sys2Proof.Proofs.ReadWindow

/-! What each rule of a command, each micro-step and the step can do: one inversion lemma for each, guards
included. The proofs about writers and invariants cite these and unfold no rule. -/

namespace Sys2Proof.Proofs.Moves

open Sys2Proof.Machine

/-- A rule that tests once and goes on either way. -/
theorem ite_next {c : Prop} [Decidable c] {a b t : State}
    (h : (if c then .next a else .next b : Result) = .next t) : (c ∧ t = a) ∨ (¬ c ∧ t = b) := by
  split at h
  · rename_i hc
    cases h
    exact .inl ⟨hc, rfl⟩
  · rename_i hc
    cases h
    exact .inr ⟨hc, rfl⟩

/-- A rule that tests twice and goes on in each case. -/
theorem ite_ite_next {c d : Prop} [Decidable c] [Decidable d] {a b e t : State}
    (h : (if c then .next a else if d then .next b else .next e : Result) = .next t) :
    (c ∧ t = a) ∨ (¬ c ∧ d ∧ t = b) ∨ (¬ c ∧ ¬ d ∧ t = e) := by
  by_cases hc : c
  · rw [if_pos hc] at h
    cases h
    exact .inl ⟨hc, rfl⟩
  · rw [if_neg hc] at h
    obtain ⟨hd, ht⟩ | ⟨hd, ht⟩ := ite_next h
    · exact .inr (.inl ⟨hc, hd, ht⟩)
    · exact .inr (.inr ⟨hc, hd, ht⟩)

/-! ### The rules of the compress commands -/

variable {s t : State}

/-- C_NAMEB (R99). -/
theorem nameByte_next {b : Byte} (h : nameByte b s = .next t) :
    (b = lineFeed ∧ t = raise .badNameByte (cmdWord 0x2 b) FInfo.zero s) ∨
      (b ≠ lineFeed ∧ t = { aoutPut [b] s with nameOpen := true }) := ite_next h

/-- C_NAMEEND (R100). -/
theorem nameEnd_next (h : nameEnd s = .next t) :
    (s.nameOpen = false ∧ t = raise .emptyName (cmdWord 0x3 0) FInfo.zero s) ∨
      (s.nameOpen ≠ false ∧ countFull s = true ∧ t = countError 0x3 s) ∨
      (s.nameOpen ≠ false ∧ countFull s ≠ true ∧
        t = { aoutPut [lineFeed] s with nfiles := s.nfiles + 1, nameOpen := false }) := ite_ite_next h

/-- C_HDREND (R101). -/
theorem headerEnd_next (h : headerEnd s = .next t) :
    (s.nameOpen = true ∧ t = raise .seqError (cmdWord 0x4 0) FInfo.zero s) ∨
      (s.nameOpen ≠ true ∧ s.nfiles = 0#32 ∧ t = countError 0x4 s) ∨
      (s.nameOpen ≠ true ∧ s.nfiles ≠ 0#32 ∧
        t = { aoutPut [lineFeed] s with fidx := 0#32, mode := .cbody }) := ite_ite_next h

/-- C_FBEGIN (R79). -/
theorem beginSegment_next (h : beginSegment s = .next t) :
    (s.nfiles.toNat ≤ s.fidx.toNat ∧ t = countError 0x5 s) ∨
      (s.fidx.toNat < s.nfiles.toNat ∧ t = { dictReset s with sbuf := [], mode := .cfile }) :=
  (ite_next h).imp_right (And.imp_left Nat.lt_of_not_le)

/-- The mismatch branch of C_DATA: the code of S is written, and S with the new byte is inserted at the
allocated code (R80). -/
theorem emitAndInsert_next {c : Bytes} (h : emitAndInsert c s = .next t) :
    ∃ k n, dictElookup s.sbuf s = some k ∧ n = (dictAlloc (bcWrite k s)).1 ∧
      insertable n (s.sbuf ++ c) { bcWrite k s with nextCode := n } = true ∧
      t = { bcWrite k s with
        entry := memWrite n.toNat (s.sbuf ++ c) s.entry, nextCode := BitVec.ofNat 12 (n.toNat + 1), sbuf := c } := by
  unfold emitAndInsert at h
  split at h
  · cases h
  · rename_i k hk
    dsimp only at h
    rw [dictAlloc_frame] at h
    split at h
    · cases h
    · rename_i u hu
      obtain ⟨hins, rfl⟩ := insertEntry_some hu
      cases h
      exact ⟨k, _, hk, rfl, hins, rfl⟩

/-- C_DATA (R80). -/
theorem encodeByte_next {b : Byte} (h : encodeByte b s = .next t) :
    (s.sbuf = [] ∧ t = { s with sbuf := immString b }) ∨
      (s.sbuf ≠ [] ∧ (∃ k, dictElookup (s.sbuf ++ immString b) s = some k) ∧
        t = { s with sbuf := s.sbuf ++ immString b }) ∨
      (s.sbuf ≠ [] ∧ dictElookup (s.sbuf ++ immString b) s = none ∧
        emitAndInsert (immString b) s = .next t) := by
  unfold encodeByte at h
  dsimp only at h
  split at h
  · rename_i hs
    cases h
    exact .inl ⟨hs, rfl⟩
  · rename_i hs
    split at h
    · rename_i k hk
      cases h
      exact .inr (.inl ⟨hs, ⟨k, hk⟩, rfl⟩)
    · rename_i hk
      exact .inr (.inr ⟨hs, hk, h⟩)

/-- C_FEND (R81). -/
theorem endSegment_next (h : endSegment s = .next t) :
    (s.sbuf = [] ∧ t = closeSegment s) ∨
      (s.sbuf ≠ [] ∧ ∃ k, dictElookup s.sbuf s = some k ∧ t = closeSegment (bcWrite k s)) := by
  unfold endSegment at h
  split at h
  · rename_i hs
    cases h
    exact .inl ⟨hs, rfl⟩
  · rename_i hs
    split at h
    · cases h
    · rename_i k hk
      cases h
      exact .inr ⟨hs, k, hk, rfl⟩

/-- C_FINISH (R102). -/
theorem closeCompress_next (h : closeCompress s = .next t) :
    (s.fidx ≠ s.nfiles ∧ t = countError 0x8 s) ∨
      (s.fidx = s.nfiles ∧ t = { s with tailDrop := tailDropOf s, mode := .idle }) :=
  (ite_next h).imp_right (And.imp_left not_not.mp)

/-! ### The rules of the decompress commands -/

/-- D_FILE (R85). -/
theorem acceptFile_next (h : acceptFile s = .next t) :
    (s.nfiles.toNat ≤ s.fidx.toNat ∧ t = countError 0xB s) ∨
      (s.fidx.toNat < s.nfiles.toNat ∧
        t = { dictReset s with busy := true, mode := .dfile, dstate := .first }) :=
  (ite_next h).imp_right (And.imp_left Nat.lt_of_not_le)

/-- D_FINISH (R106). -/
theorem closeDecompress_next (h : closeDecompress s = .next t) :
    (s.fidx ≠ s.nfiles ∧ t = countError 0xC s) ∨
      (s.fidx = s.nfiles ∧ t = { s with mode := .idle }) :=
  (ite_next h).imp_right (And.imp_left not_not.mp)

/-! ### The codes -/

/-- DS_FIRST with a code (R86). -/
theorem resolveFirst_next {r : Code} (h : resolveFirst r s = .next t) :
    (dictDlookup r s = none ∧ t = raise .decodeMiss dFileWord (infoFval r) s) ∨
      ∃ x, dictDlookup r s = some x ∧ t = setCurrent r x s := by
  unfold resolveFirst at h
  split at h
  · rename_i hr
    cases h
    exact .inl ⟨hr, rfl⟩
  · rename_i x hr
    cases h
    exact .inr ⟨x, hr, rfl⟩

/-- What an insertion of the string x at the code n leaves (R78). -/
def withInserted (n : Code) (x : Bytes) (s : State) : State :=
  { s with entry := memWrite n.toNat x s.entry, nextCode := BitVec.ofNat 12 (n.toNat + 1) }

/-- DS_NEXT with a code, where n is the allocated code: a miss, a string that is too long, or a new entry and
a new current string (R88). -/
theorem resolveNext_next {r : Code} (h : resolveNext r s = .next t) :
    ∃ n, n = (dictAlloc s).1 ∧
      ((n.toNat < r.toNat ∧ t = raise .decodeMiss dFileWord (infoFval r) { s with nextCode := n }) ∨
      (r.toNat ≤ n.toNat ∧ 3841 < s.curStr.length + 1 ∧
        t = raise .entryTooLong dFileWord (infoFval r) { s with nextCode := n }) ∨
      ∃ fc y, r.toNat ≤ n.toNat ∧ s.curStr.length + 1 ≤ 3841 ∧
        firstChar r n { s with nextCode := n } = some fc ∧
        insertable n (s.curStr ++ [fc]) { s with nextCode := n } = true ∧
        dictDlookup r (withInserted n (s.curStr ++ [fc]) s) = some y ∧
        t = setCurrent r y (withInserted n (s.curStr ++ [fc]) s)) := by
  refine ⟨_, rfl, ?_⟩
  unfold resolveNext at h
  dsimp only at h
  rw [dictAlloc_frame] at h
  split at h
  · rename_i hr
    cases h
    exact .inl ⟨hr, rfl⟩
  · rename_i hr
    split at h
    · cases h
    · rename_i fc hfc
      split at h
      · rename_i hl
        cases h
        exact .inr (.inl ⟨Nat.le_of_not_lt hr, hl, rfl⟩)
      · rename_i hl
        split at h
        · cases h
        · rename_i u hu
          obtain ⟨hins, rfl⟩ := insertEntry_some hu
          split at h
          · cases h
          · rename_i y hy
            cases h
            exact .inr (.inr ⟨fc, y, Nat.le_of_not_lt hr, Nat.le_of_not_lt hl, hfc, hins, hy, rfl⟩)

theorem readingCode_iff (s : State) :
    readingCode s = true ↔ s.busy = true ∧ s.mode = .dfile ∧ s.dstate ≠ .emit := by
  simp [readingCode, and_assoc]

/-- A LIT or DYN code runs only where D_FILE reads one, by the micro-state that reads it (R86, R88). -/
theorem resolveCode_next {r : Code} (h : resolveCode r s = .next t) :
    s.busy = true ∧ s.mode = .dfile ∧
      ((s.dstate = .first ∧ resolveFirst r s = .next t) ∨ (s.dstate = .next ∧ resolveNext r s = .next t)) := by
  unfold resolveCode at h
  split at h
  · rename_i hread
    obtain ⟨hbusy, hmode, -⟩ := (readingCode_iff s).mp hread
    refine ⟨hbusy, hmode, ?_⟩
    split at h
    · rename_i hd
      exact .inl ⟨hd, h⟩
    · rename_i hd
      exact .inr ⟨hd, h⟩
    · cases h
  · cases h

/-- SENT runs only where D_FILE reads a code (R90). -/
theorem execSent_next (h : execSent s = .next t) :
    s.busy = true ∧ s.mode = .dfile ∧ s.dstate ≠ .emit ∧ t = segEnd s := by
  unfold execSent at h
  split at h
  · rename_i hread
    obtain ⟨hbusy, hmode, hd⟩ := (readingCode_iff s).mp hread
    cases h
    exact ⟨hbusy, hmode, hd, rfl⟩
  · cases h

/-- ABORT (R108). -/
theorem execAbort_next (h : execAbort s = .next t) : s.busy = false ∧ t = resetRegisters s := by
  unfold execAbort at h
  split at h
  · cases h
  · rename_i hb
    cases h
    exact ⟨by simpa using hb, rfl⟩

/-- An insertion as a selector word (R76, R78). -/
theorem inserted_insertEntry_next {c : Code} {x : Bytes} (h : inserted (insertEntry c x s) = .next t) :
    insertable c x s = true ∧ t = withInserted c x s := by
  cases hi : insertEntry c x s with
  | none =>
    rw [hi] at h
    cases h
  | some u =>
    rw [hi] at h
    cases h
    exact insertEntry_some hi

/-! ### The instructions by kind -/

/-- A command's opcode, its byte, and the rule that runs where its mode admits it. -/
structure Rule where
  op : Nat
  imm : Byte
  body : State → Result

/-- The rules of the twelve commands that `command` dispatches. -/
def ruleOf : Instr → Option Rule
  | .cStart => some ⟨0x1, 0, openCompress⟩
  | .cNameb b => some ⟨0x2, b, nameByte b⟩
  | .cNameend => some ⟨0x3, 0, nameEnd⟩
  | .cHdrend => some ⟨0x4, 0, headerEnd⟩
  | .cFbegin => some ⟨0x5, 0, beginSegment⟩
  | .cData b => some ⟨0x6, b, encodeByte b⟩
  | .cFend => some ⟨0x7, 0, endSegment⟩
  | .cFinish => some ⟨0x8, 0, closeCompress⟩
  | .dStart => some ⟨0x9, 0, openDecompress⟩
  | .dName => some ⟨0xA, 0, acceptName⟩
  | .dFile => some ⟨0xB, 0, acceptFile⟩
  | .dFinish => some ⟨0xC, 0, closeDecompress⟩
  | .abort | .illegalOp0 _ | .illegalOpE _ | .illegalOpF _ | .bcWrite _ | .bcRead | .bcWclr | .bcRclr
  | .dictReset | .dictAlloc | .dictElookup | .dictEinsert _ | .dictDlookup _ | .dictDinsert _
  | .uopReserved _ _ | .sent | .lit _ | .dyn _ => none

theorem exec_of_ruleOf {i : Instr} {r : Rule} (h : ruleOf i = some r) (s : State) :
    exec i s = command r.op r.imm r.body s := by
  cases i <;> cases h <;> rfl

/-- A micro-operation writes no register outside BitCodec and the dictionary (R61). -/
theorem microOperation_frame {i : Instr} (hi : microOperation i = true) (h : exec i s = .next t) :
    ∃ wb wc rb rc nc en ao ai res,
      t = { s with
        wbits := wb, wcnt := wc, rbits := rb, rcnt := rc, nextCode := nc, entry := en, aout := ao, ain := ai
        uopRes := res } := by
  cases i with
  | bcWrite | bcWclr | bcRclr | dictReset | dictElookup | dictDlookup =>
    cases h
    exact ⟨_, _, _, _, _, _, _, _, _, rfl⟩
  | bcRead =>
    obtain ⟨bs, rb, rc, hread⟩ := bcRead_frame s
    cases h
    rw [hread]
    exact ⟨_, _, _, _, _, _, _, _, _, rfl⟩
  | dictAlloc =>
    cases h
    rw [dictAlloc_frame]
    exact ⟨_, _, _, _, _, _, _, _, _, rfl⟩
  | dictEinsert c | dictDinsert c =>
    obtain ⟨-, rfl⟩ := inserted_insertEntry_next h
    exact ⟨_, _, _, _, _, _, _, _, _, rfl⟩
  | uopReserved => cases h
  | cStart | cNameb | cNameend | cHdrend | cFbegin | cData | cFend | cFinish | dStart | dName | dFile | dFinish
  | abort | illegalOp0 | illegalOpE | illegalOpF | sent | lit | dyn => cases hi

/-! ### The micro-steps and the step -/

/-- EXHAUST (R93). -/
theorem exhaust_cases (s : State) :
    (truncatedSentinel s = true ∧ exhaust s = segEnd { s with truncSent := true }) ∨
      (truncatedSentinel s ≠ true ∧ exhaust s = raise .streamExhausted dFileWord (infoFrcnt s.rcnt) s) := by
  unfold exhaust
  split
  · rename_i h
    exact .inl ⟨h, rfl⟩
  · rename_i h
    exact .inr ⟨h, rfl⟩

/-- DN_STEP with no byte left (R105). -/
theorem dnStep_nil (h : s.ain = []) : dnStep s = raise .hdrTruncated (cmdWord 0xA 0) FInfo.zero s := by
  simp only [dnStep, ainGet, h]

/-- DN_STEP with the byte b, once it is taken off AIN (R105). -/
theorem dnStep_cons {b : Byte} {rest : Bytes} (h : s.ain = b :: rest) :
    let u := { s with ain := rest }
    (b ≠ lineFeed ∧ dnStep s = { doutPut [⟨.nameb, b⟩] u with lineOpen := true }) ∨
      (b = lineFeed ∧ s.lineOpen = true ∧ countFull s = true ∧ dnStep s = countError 0xA u) ∨
      (b = lineFeed ∧ s.lineOpen = true ∧ countFull s ≠ true ∧
        dnStep s = { doutPut [⟨.nameEnd, 0⟩] u with nfiles := s.nfiles + 1, lineOpen := false, busy := false }) ∨
      (b = lineFeed ∧ s.lineOpen ≠ true ∧ s.nfiles = 0#32 ∧ dnStep s = countError 0xA u) ∨
      (b = lineFeed ∧ s.lineOpen ≠ true ∧ s.nfiles ≠ 0#32 ∧
        dnStep s = { doutPut [⟨.hdrEnd, 0⟩] u with fidx := 0#32, busy := false, mode := .dbody }) := by
  have hfull : countFull { s with ain := rest } = countFull s := rfl
  simp only [dnStep, ainGet, h, hfull]
  by_cases hb : b = lineFeed
  · by_cases hl : s.lineOpen = true
    · by_cases hc : countFull s = true
      · simp [hb, hl, hc]
      · simp [hb, hl, hc]
    · by_cases hn : s.nfiles = 0#32
      · simp [hb, hl, hn]
      · simp [hb, hl, hn]
  · simp [hb]

/-- One move of the core that answers the state t, by where it comes from. -/
inductive Move (s t : State) : Prop where
  /-- A selector word waits on the internal port (R61). -/
  | uop (w : UopWord) (port : s.uopPort = some w)
      (run : exec (decodeUop w) { s with uopPort := none } = .next t)
  /-- A micro-step of D_NAME (R105). -/
  | name (port : s.uopPort = none) (busy : s.busy = true) (mode : s.mode = .dhdr) (eq : t = dnStep s)
  /-- The micro-step DS_EMIT of D_FILE (R87). -/
  | emit (port : s.uopPort = none) (busy : s.busy = true) (mode : s.mode = .dfile) (dstate : s.dstate = .emit)
      (eq : t = dsEmit s)
  /-- A micro-step of D_FILE that reads a code (R86, R88). -/
  | code (port : s.uopPort = none) (busy : s.busy = true) (mode : s.mode = .dfile) (dstate : s.dstate ≠ .emit)
      (c : Code) (u : State) (read : bcRead s = (some c, u)) (run : exec (decodeCode c) u = .next t)
  /-- A micro-step of D_FILE that finds too few bits (R93). -/
  | exhausted (port : s.uopPort = none) (busy : s.busy = true) (mode : s.mode = .dfile)
      (dstate : s.dstate ≠ .emit) (u : State) (read : bcRead s = (none, u)) (eq : t = exhaust u)
  /-- No word waits on the command port (R120). -/
  | wait (port : s.uopPort = none) (busy : s.busy = false) (cmdq : s.cmdq = []) (eq : t = s)
  /-- A word of the opcode map (R96). -/
  | command (port : s.uopPort = none) (busy : s.busy = false) (w : Word) (rest : List Word) (i : Instr)
      (cmdq : s.cmdq = w :: rest) (decode : decodeCmd w = .ok i)
      (run : exec i { s with cmdq := rest } = .next t)
  /-- A word that is no row of the opcode map (R59). -/
  | illegal (port : s.uopPort = none) (busy : s.busy = false) (w : Word) (rest : List Word) (r : Reject)
      (cmdq : s.cmdq = w :: rest) (decode : decodeCmd w = .reject r)
      (run : illegalWord w { s with cmdq := rest } = .next t)

/-- What the micro-step of a running command does with the state s. -/
theorem move_of_fetchMicro (hp : s.uopPort = none) (hb : s.busy = true) (hf : fetch s = fetchMicro s)
    (h : step s = .next t) : Move s t := by
  rw [step, hf] at h
  cases hm : s.mode with
  | dhdr =>
    simp only [fetchMicro, hm] at h
    exact .name hp hb hm (Host.Outcome.next.inj h).symm
  | dfile =>
    by_cases hd : s.dstate = .emit
    · simp only [fetchMicro, hm, hd] at h
      exact .emit hp hb hm hd (Host.Outcome.next.inj h).symm
    · have hcode : fetchMicro s = fetchCode s := by
        cases hd' : s.dstate with
        | emit => exact absurd hd' hd
        | first => simp only [fetchMicro, hm, hd']
        | next => simp only [fetchMicro, hm, hd']
      rw [hcode] at h
      rcases hr : bcRead s with ⟨_ | c, u⟩
      · simp only [fetchCode, hr] at h
        exact .exhausted hp hb hm hd u hr (Host.Outcome.next.inj h).symm
      · simp only [fetchCode, hr] at h
        exact .code hp hb hm hd c u hr h
  | idle | chdr | cbody | cfile | dbody | fault =>
    simp only [fetchMicro, hm] at h
    cases h

/-- Every step that answers a state is one of the moves. -/
theorem move_of_step (h : step s = .next t) : Move s t := by
  cases hp : s.uopPort with
  | some w =>
    refine .uop w hp ?_
    rw [← h]
    exact (step_of_run (by simp only [fetch, hp])).symm
  | none =>
    obtain ⟨hb, hf⟩ | ⟨hb, hq, hf⟩ | ⟨w, rest, i, hb, hq, hd, hf⟩ | ⟨w, rest, r, hb, hq, hd, hf⟩ :=
      fetch_cases s hp
    · exact move_of_fetchMicro hp hb hf h
    · exact .wait hp hb hq (Host.Outcome.next.inj ((step_of_done hf).symm.trans h)).symm
    · exact .command hp hb w rest i hq hd ((step_of_run hf).symm.trans h)
    · exact .illegal hp hb w rest r hq hd ((step_of_done hf).symm.trans h)

/-! ### The decoders -/

/-- A word without RSV is its opcode and its byte (R56). -/
theorem eq_cmdWord {w : Word} (h : field w.toNat 27 8 = 0) :
    w = cmdWord (field w.toNat 31 28) (BitVec.ofNat 8 (field w.toNat 7 0)) := by
  have hw := w.isLt
  simp only [field] at h ⊢
  apply BitVec.eq_of_toNat_eq
  rw [Laws.TableRow.cmdWord_toNat (by omega), BitVec.toNat_ofNat]
  omega

/-- A word is its opcode and its bits [27:0]. -/
theorem eq_rawWord (w : Word) : w = rawWord (field w.toNat 31 28) (restOf w) := by
  have hw := w.isLt
  simp only [restOf, field]
  apply BitVec.eq_of_toNat_eq
  rw [Laws.TableRow.rawWord_toNat (by omega), BitVec.toNat_ofNat]
  omega

/-- What a command without a byte accepts (R58, R59). -/
theorem plainCommand_ok {w : Word} {i j : Instr} (h : plainCommand w i = .ok j) :
    j = i ∧ w = cmdWord (field w.toNat 31 28) 0 := by
  unfold plainCommand at h
  split at h
  · cases h
  · rename_i hrsv
    split at h
    · cases h
    · rename_i himm
      cases h
      have hw := eq_cmdWord (not_not.mp hrsv)
      rw [not_not.mp himm] at hw
      exact ⟨rfl, hw⟩

/-- What a command with a byte accepts (R58, R59). -/
theorem byteCommand_ok {w : Word} {f : Byte → Instr} {j : Instr} (h : byteCommand w f = .ok j) :
    ∃ b, j = f b ∧ w = cmdWord (field w.toNat 31 28) b := by
  unfold byteCommand at h
  split at h
  · cases h
  · rename_i hrsv
    cases h
    exact ⟨_, rfl, eq_cmdWord (not_not.mp hrsv)⟩

/-- A word the decoder accepts is the word of its instruction (R58). -/
theorem encode_of_decodeCmd {w : Word} {i : Instr} (h : decodeCmd w = .ok i) : encode i = .cmd w := by
  have hraw := eq_rawWord w
  have hop : field w.toNat 31 28 < 16 := Nat.mod_lt _ (by decide)
  unfold decodeCmd at h
  split at h
  case h_3 | h_7 =>
    rename_i heq
    obtain ⟨b, rfl, hw⟩ := byteCommand_ok h
    rw [heq] at hw
    rw [hw]
    rfl
  case h_1 | h_15 =>
    rename_i heq
    cases h
    rw [heq] at hraw
    rw [encode, ← hraw]
  case h_16 =>
    cases h
    simp only [imp_false] at *
    have heq : field w.toNat 31 28 = 0xF := by omega
    rw [heq] at hraw
    rw [encode, ← hraw]
  all_goals
    rename_i heq
    obtain ⟨rfl, hw⟩ := plainCommand_ok h
    rw [heq] at hw
    rw [hw]
    rfl

/-- The one word of ABORT (R58). -/
theorem decodeCmd_abort {w : Word} (h : decodeCmd w = .ok .abort) : w = 0xD0000000#32 :=
  (Encoded.cmd.inj (encode_of_decodeCmd h)).symm

/-- A selector word is a micro-operation (R61). -/
theorem microOperation_decodeUop (w : UopWord) : microOperation (decodeUop w) = true := by
  unfold decodeUop
  dsimp only
  split <;> rfl

/-- A code is SENT, a LIT or a DYN (R50). -/
theorem decodeCode_cases (c : Code) :
    decodeCode c = .sent ∨ (∃ d, decodeCode c = .lit d) ∨ decodeCode c = .dyn c := by
  unfold decodeCode
  split
  · exact .inl rfl
  · split
    · exact .inr (.inl ⟨_, rfl⟩)
    · exact .inr (.inr rfl)

end Sys2Proof.Proofs.Moves

/-! Who writes the fault registers (10_state.md R20). -/

namespace Sys2Proof.Proofs.FaultRegisters

open Sys2Proof.Machine Sys2Proof.Claims Sys2Proof.Proofs.Moves

/-- The move from s to t enters FAULT from another mode, with a fault code and BUSY = 0 (R113). -/
def EntersFault (s t : State) : Prop :=
  s.mode ≠ .fault ∧ t.mode = .fault ∧ t.fcode ≠ .none ∧ t.busy = false

/-- The move from s to t leaves the fault registers alone or enters FAULT. -/
def KeepsOrEnters (s t : State) : Prop := SameFault s t ∨ EntersFault s t

variable {s t : State}

/-- Every `raise` outside FAULT is a fault entry, whatever else was written before it. -/
theorem KeepsOrEnters.raise {f : FCode} (hs : s.mode ≠ .fault) (hf : f ≠ .none) (w : Word) (j : FInfo)
    (u : State) : KeepsOrEnters s (raise f w j u) := .inr ⟨hs, rfl, hf, rfl⟩

theorem KeepsOrEnters.countError (hs : s.mode ≠ .fault) (op : Nat) (u : State) :
    KeepsOrEnters s (countError op u) := .raise hs (by decide) _ _ u

/-- The relation reads MODE and the fault registers of the first state alone. -/
theorem KeepsOrEnters.of_eq {u : State} (hmode : u.mode = s.mode) (hcode : u.fcode = s.fcode)
    (hcmd : u.fcmd = s.fcmd) (hinfo : u.finfo = s.finfo) (h : KeepsOrEnters u t) : KeepsOrEnters s t := by
  simpa only [KeepsOrEnters, SameFault, EntersFault, hmode, hcode, hcmd, hinfo] using h

/-! ### The instructions -/

theorem encodeByte_keepsOrEnters {b : Byte} (h : encodeByte b s = .next t) : KeepsOrEnters s t := by
  obtain ⟨-, rfl⟩ | ⟨-, -, rfl⟩ | ⟨-, -, hemit⟩ := encodeByte_next h
  · exact .inl ⟨rfl, rfl, rfl⟩
  · exact .inl ⟨rfl, rfl, rfl⟩
  · obtain ⟨k, n, -, -, -, rfl⟩ := emitAndInsert_next hemit
    exact .inl ⟨rfl, rfl, rfl⟩

/-- The rule of a command, in a mode other than FAULT. -/
theorem rule_keepsOrEnters {i : Instr} {r : Rule} (hr : ruleOf i = some r) (hs : s.mode ≠ .fault)
    (h : r.body s = .next t) : KeepsOrEnters s t := by
  cases i with
  | cStart | dStart | dName =>
    cases hr
    cases h
    exact .inl ⟨rfl, rfl, rfl⟩
  | cNameb b =>
    cases hr
    obtain ⟨-, rfl⟩ | ⟨-, rfl⟩ := nameByte_next h
    · exact .raise hs (by decide) _ _ _
    · exact .inl ⟨rfl, rfl, rfl⟩
  | cNameend =>
    cases hr
    obtain ⟨-, rfl⟩ | ⟨-, -, rfl⟩ | ⟨-, -, rfl⟩ := nameEnd_next h
    · exact .raise hs (by decide) _ _ _
    · exact .countError hs _ _
    · exact .inl ⟨rfl, rfl, rfl⟩
  | cHdrend =>
    cases hr
    obtain ⟨-, rfl⟩ | ⟨-, -, rfl⟩ | ⟨-, -, rfl⟩ := headerEnd_next h
    · exact .raise hs (by decide) _ _ _
    · exact .countError hs _ _
    · exact .inl ⟨rfl, rfl, rfl⟩
  | cFbegin =>
    cases hr
    obtain ⟨-, rfl⟩ | ⟨-, rfl⟩ := beginSegment_next h
    · exact .countError hs _ _
    · exact .inl ⟨rfl, rfl, rfl⟩
  | cData b =>
    cases hr
    exact encodeByte_keepsOrEnters h
  | cFend =>
    cases hr
    obtain ⟨-, rfl⟩ | ⟨-, k, -, rfl⟩ := endSegment_next h
    · exact .inl ⟨rfl, rfl, rfl⟩
    · exact .inl ⟨rfl, rfl, rfl⟩
  | cFinish =>
    cases hr
    obtain ⟨-, rfl⟩ | ⟨-, rfl⟩ := closeCompress_next h
    · exact .countError hs _ _
    · exact .inl ⟨rfl, rfl, rfl⟩
  | dFile =>
    cases hr
    obtain ⟨-, rfl⟩ | ⟨-, rfl⟩ := acceptFile_next h
    · exact .countError hs _ _
    · exact .inl ⟨rfl, rfl, rfl⟩
  | dFinish =>
    cases hr
    obtain ⟨-, rfl⟩ | ⟨-, rfl⟩ := closeDecompress_next h
    · exact .countError hs _ _
    · exact .inl ⟨rfl, rfl, rfl⟩
  | abort | illegalOp0 | illegalOpE | illegalOpF | bcWrite | bcRead | bcWclr | bcRclr | dictReset | dictAlloc
  | dictElookup | dictEinsert | dictDlookup | dictDinsert | uopReserved | sent | lit | dyn => cases hr

theorem command_keepsOrEnters {i : Instr} {r : Rule} (hr : ruleOf i = some r) (h : exec i s = .next t) :
    KeepsOrEnters s t := by
  rw [exec_of_ruleOf hr] at h
  obtain ⟨-, ⟨-, rfl⟩ | ⟨hs, -, hbody⟩ | ⟨hs, -, rfl⟩⟩ := command_next h
  · exact .inl ⟨rfl, rfl, rfl⟩
  · exact rule_keepsOrEnters hr hs hbody
  · exact .raise hs (by decide) _ _ _

theorem illegalWord_keepsOrEnters {w : Word} (h : illegalWord w s = .next t) : KeepsOrEnters s t := by
  obtain ⟨-, ⟨-, rfl⟩ | ⟨hs, rfl⟩⟩ := illegalWord_next h
  · exact .inl ⟨rfl, rfl, rfl⟩
  · exact .raise hs (by decide) _ _ _

/-- A micro-operation leaves the fault registers alone. -/
theorem microOperation_sameFault {i : Instr} (hi : microOperation i = true) (h : exec i s = .next t) :
    SameFault s t := by
  obtain ⟨_, _, _, _, _, _, _, _, _, rfl⟩ := microOperation_frame hi h
  exact ⟨rfl, rfl, rfl⟩

theorem resolveCode_keepsOrEnters {r : Code} (h : resolveCode r s = .next t) : KeepsOrEnters s t := by
  obtain ⟨-, hmode, ⟨-, hfirst⟩ | ⟨-, hnext⟩⟩ := resolveCode_next h
  all_goals have hs : s.mode ≠ .fault := by simp [hmode]
  · obtain ⟨-, rfl⟩ | ⟨x, -, rfl⟩ := resolveFirst_next hfirst
    · exact .raise hs (by decide) _ _ _
    · exact .inl ⟨rfl, rfl, rfl⟩
  · obtain ⟨n, -, ⟨-, rfl⟩ | ⟨-, -, rfl⟩ | ⟨fc, y, -, -, -, -, -, rfl⟩⟩ := resolveNext_next hnext
    · exact .raise hs (by decide) _ _ _
    · exact .raise hs (by decide) _ _ _
    · exact .inl ⟨rfl, rfl, rfl⟩

/-- Every instruction but ABORT leaves the fault registers alone or enters FAULT. -/
theorem exec_keepsOrEnters {i : Instr} (hi : i ≠ .abort) (h : exec i s = .next t) : KeepsOrEnters s t := by
  cases i with
  | abort => exact absurd rfl hi
  | cStart | cNameb | cNameend | cHdrend | cFbegin | cData | cFend | cFinish | dStart | dName | dFile
  | dFinish => exact command_keepsOrEnters rfl h
  | illegalOp0 | illegalOpE | illegalOpF => exact illegalWord_keepsOrEnters h
  | bcWrite | bcRead | bcWclr | bcRclr | dictReset | dictAlloc | dictElookup | dictEinsert | dictDlookup
  | dictDinsert | uopReserved => exact .inl (microOperation_sameFault rfl h)
  | sent =>
    obtain ⟨-, -, -, rfl⟩ := execSent_next h
    exact .inl ⟨rfl, rfl, rfl⟩
  | lit | dyn => exact resolveCode_keepsOrEnters h

/-! ### The moves -/

theorem decodeCode_ne_abort (c : Code) : decodeCode c ≠ .abort := by
  obtain h | ⟨d, h⟩ | h := decodeCode_cases c
  all_goals
    rw [h]
    exact Instr.noConfusion

theorem dnStep_keepsOrEnters (hs : s.mode ≠ .fault) : KeepsOrEnters s (dnStep s) := by
  cases hain : s.ain with
  | nil =>
    rw [dnStep_nil hain]
    exact .raise hs (by decide) _ _ _
  | cons b rest =>
    obtain ⟨-, h⟩ | ⟨-, -, -, h⟩ | ⟨-, -, -, h⟩ | ⟨-, -, -, h⟩ | ⟨-, -, -, h⟩ := dnStep_cons hain
    all_goals rw [h]
    · exact .inl ⟨rfl, rfl, rfl⟩
    · exact .countError hs _ _
    · exact .inl ⟨rfl, rfl, rfl⟩
    · exact .countError hs _ _
    · exact .inl ⟨rfl, rfl, rfl⟩

theorem exhaust_keepsOrEnters (hs : s.mode ≠ .fault) : KeepsOrEnters s (exhaust s) := by
  obtain ⟨-, h⟩ | ⟨-, h⟩ := exhaust_cases s
  all_goals rw [h]
  · exact .inl ⟨rfl, rfl, rfl⟩
  · exact .raise hs (by decide) _ _ _

/-- BC_READ changes neither MODE nor the fault registers. -/
theorem KeepsOrEnters.of_bcRead {o : Option Code} {u : State} (hread : bcRead s = (o, u))
    (h : u.mode = s.mode → KeepsOrEnters u t) : KeepsOrEnters s t := by
  obtain ⟨bs, rb, rc, hframe⟩ := bcRead_frame s
  rw [hread] at hframe
  subst hframe
  exact h rfl

/-- The step takes the word of ABORT from the command port and returns to reset (R116). -/
def TakesAbort (s t : State) : Prop :=
  s.uopPort = none ∧ s.busy = false ∧
    ∃ rest, s.cmdq = 0xD0000000#32 :: rest ∧ t = resetRegisters { s with cmdq := rest }

/-- A move of the core leaves the fault registers alone, enters FAULT, or takes ABORT. -/
theorem move_keepsOrEnters (h : Move s t) : KeepsOrEnters s t ∨ TakesAbort s t := by
  cases h with
  | uop w port run =>
    have hsame := microOperation_sameFault (microOperation_decodeUop w) run
    exact .inl (.inl hsame)
  | name port busy mode eq =>
    subst eq
    exact .inl (dnStep_keepsOrEnters (by simp [mode]))
  | emit port busy mode dstate eq =>
    subst eq
    exact .inl (.inl ⟨rfl, rfl, rfl⟩)
  | code port busy mode dstate c u read run =>
    exact .inl (.of_bcRead read fun _ => exec_keepsOrEnters (decodeCode_ne_abort c) run)
  | exhausted port busy mode dstate u read eq =>
    subst eq
    exact .inl (.of_bcRead read fun hm => exhaust_keepsOrEnters (by simp [hm, mode]))
  | wait port busy cmdq eq =>
    subst eq
    exact .inl (.inl ⟨rfl, rfl, rfl⟩)
  | command port busy w rest i cmdq decode run =>
    by_cases hi : i = .abort
    · subst hi
      obtain ⟨-, ht⟩ := execAbort_next run
      exact .inr ⟨port, busy, rest, decodeCmd_abort decode ▸ cmdq, ht⟩
    · exact .inl ((exec_keepsOrEnters hi run).of_eq rfl rfl rfl rfl)
  | illegal port busy w rest r cmdq decode run =>
    exact .inl ((illegalWord_keepsOrEnters run).of_eq rfl rfl rfl rfl)

/-- Where a fault register changed, a move that keeps them or enters FAULT enters FAULT. -/
theorem KeepsOrEnters.entersFault (h : KeepsOrEnters s t)
    (hw : t.fcode ≠ s.fcode ∨ t.fcmd ≠ s.fcmd ∨ t.finfo ≠ s.finfo) : EntersFault s t := by
  obtain ⟨hcode, hcmd, hinfo⟩ | henter := h
  · simp [hcode, hcmd, hinfo] at hw
  · exact henter

/-- Settles O48, first over the instructions and then over the moves of the core. -/
theorem onlyFaultEntryAndAbortWriteFaultRegisters :
    Obligations.OnlyFaultEntryAndAbortWriteFaultRegisters := by
  unfold Obligations.OnlyFaultEntryAndAbortWriteFaultRegisters
  refine ⟨fun i s t h hw => ?_, fun s t h hw => ?_⟩
  · by_cases hi : i = .abort
    · exact .inl hi
    · obtain ⟨hs, ht, -, -⟩ := (exec_keepsOrEnters hi h).entersFault hw
      exact .inr ⟨ht, hs⟩
  · obtain hkeep | ⟨port, busy, rest, hq, rfl⟩ := move_keepsOrEnters (move_of_step h)
    · exact .inl (hkeep.entersFault hw)
    · exact .inr ⟨port, busy, by rw [hq]; rfl, rfl, rfl, rfl, rfl⟩

end Sys2Proof.Proofs.FaultRegisters

/-! Who writes the file counters (10_state.md R15, R16). -/

namespace Sys2Proof.Proofs.Counters

open Sys2Proof.Machine Sys2Proof.Proofs.Moves

/-- Where the move of i from s to t changed a file counter, i is one of the counter's writers. -/
def ChangesOnlyAsWriter (i : Instr) (s t : State) : Prop :=
  (t.nfiles ≠ s.nfiles → i = .cStart ∨ i = .cNameend ∨ i = .dStart ∨ i = .abort) ∧
    (t.fidx ≠ s.fidx → i = .cStart ∨ i = .cHdrend ∨ i = .cFend ∨ i = .dStart ∨ i = .abort ∨ i = .sent)

variable {i : Instr} {s t : State}

theorem ChangesOnlyAsWriter.kept (h : t.nfiles = s.nfiles ∧ t.fidx = s.fidx) : ChangesOnlyAsWriter i s t :=
  ⟨fun hne => absurd h.1 hne, fun hne => absurd h.2 hne⟩

/-- C_START, D_START and ABORT write both counters. -/
theorem changesOnlyAsWriter_of_start (hi : i = .cStart ∨ i = .dStart ∨ i = .abort) :
    ChangesOnlyAsWriter i s t := by
  obtain rfl | rfl | rfl := hi
  all_goals exact ⟨fun _ => by simp, fun _ => by simp⟩

/-- C_HDREND, C_FEND and SENT write FIDX alone. -/
theorem changesOnlyAsWriter_of_fidx (hi : i = .cHdrend ∨ i = .cFend ∨ i = .sent)
    (hn : t.nfiles = s.nfiles) : ChangesOnlyAsWriter i s t := by
  refine ⟨fun hne => absurd hn hne, fun _ => ?_⟩
  obtain rfl | rfl | rfl := hi
  all_goals simp

theorem nameEnd_fidx (h : nameEnd s = .next t) : t.fidx = s.fidx := by
  obtain ⟨-, rfl⟩ | ⟨-, -, rfl⟩ | ⟨-, -, rfl⟩ := nameEnd_next h
  all_goals rfl

theorem headerEnd_nfiles (h : headerEnd s = .next t) : t.nfiles = s.nfiles := by
  obtain ⟨-, rfl⟩ | ⟨-, -, rfl⟩ | ⟨-, -, rfl⟩ := headerEnd_next h
  all_goals rfl

theorem endSegment_nfiles (h : endSegment s = .next t) : t.nfiles = s.nfiles := by
  obtain ⟨-, rfl⟩ | ⟨-, k, -, rfl⟩ := endSegment_next h
  all_goals rfl

theorem encodeByte_counters {b : Byte} (h : encodeByte b s = .next t) :
    t.nfiles = s.nfiles ∧ t.fidx = s.fidx := by
  obtain ⟨-, rfl⟩ | ⟨-, -, rfl⟩ | ⟨-, -, hemit⟩ := encodeByte_next h
  · exact ⟨rfl, rfl⟩
  · exact ⟨rfl, rfl⟩
  · obtain ⟨k, n, -, -, -, rfl⟩ := emitAndInsert_next hemit
    exact ⟨rfl, rfl⟩

/-- The rule of a command. -/
theorem rule_changesOnlyAsWriter {r : Rule} (hr : ruleOf i = some r) (h : r.body s = .next t) :
    ChangesOnlyAsWriter i s t := by
  cases i with
  | cStart | dStart => exact changesOnlyAsWriter_of_start (by simp)
  | cNameb b =>
    cases hr
    obtain ⟨-, rfl⟩ | ⟨-, rfl⟩ := nameByte_next h
    all_goals exact .kept ⟨rfl, rfl⟩
  | cNameend =>
    cases hr
    exact ⟨fun _ => by simp, fun hne => absurd (nameEnd_fidx h) hne⟩
  | cHdrend =>
    cases hr
    exact changesOnlyAsWriter_of_fidx (by simp) (headerEnd_nfiles h)
  | cFbegin =>
    cases hr
    obtain ⟨-, rfl⟩ | ⟨-, rfl⟩ := beginSegment_next h
    all_goals exact .kept ⟨rfl, rfl⟩
  | cData b =>
    cases hr
    exact .kept (encodeByte_counters h)
  | cFend =>
    cases hr
    exact changesOnlyAsWriter_of_fidx (by simp) (endSegment_nfiles h)
  | cFinish =>
    cases hr
    obtain ⟨-, rfl⟩ | ⟨-, rfl⟩ := closeCompress_next h
    all_goals exact .kept ⟨rfl, rfl⟩
  | dName =>
    cases hr
    cases h
    exact .kept ⟨rfl, rfl⟩
  | dFile =>
    cases hr
    obtain ⟨-, rfl⟩ | ⟨-, rfl⟩ := acceptFile_next h
    all_goals exact .kept ⟨rfl, rfl⟩
  | dFinish =>
    cases hr
    obtain ⟨-, rfl⟩ | ⟨-, rfl⟩ := closeDecompress_next h
    all_goals exact .kept ⟨rfl, rfl⟩
  | abort | illegalOp0 | illegalOpE | illegalOpF | bcWrite | bcRead | bcWclr | bcRclr | dictReset | dictAlloc
  | dictElookup | dictEinsert | dictDlookup | dictDinsert | uopReserved | sent | lit | dyn => cases hr

theorem command_changesOnlyAsWriter {r : Rule} (hr : ruleOf i = some r) (h : exec i s = .next t) :
    ChangesOnlyAsWriter i s t := by
  rw [exec_of_ruleOf hr] at h
  obtain ⟨-, ⟨-, rfl⟩ | ⟨-, -, hbody⟩ | ⟨-, -, rfl⟩⟩ := command_next h
  · exact .kept ⟨rfl, rfl⟩
  · exact rule_changesOnlyAsWriter hr hbody
  · exact .kept ⟨rfl, rfl⟩

theorem illegalWord_counters {w : Word} (h : illegalWord w s = .next t) :
    t.nfiles = s.nfiles ∧ t.fidx = s.fidx := by
  obtain ⟨-, ⟨-, rfl⟩ | ⟨-, rfl⟩⟩ := illegalWord_next h
  all_goals exact ⟨rfl, rfl⟩

theorem microOperation_counters (hi : microOperation i = true) (h : exec i s = .next t) :
    t.nfiles = s.nfiles ∧ t.fidx = s.fidx := by
  obtain ⟨_, _, _, _, _, _, _, _, _, rfl⟩ := microOperation_frame hi h
  exact ⟨rfl, rfl⟩

theorem resolveCode_counters {r : Code} (h : resolveCode r s = .next t) :
    t.nfiles = s.nfiles ∧ t.fidx = s.fidx := by
  obtain ⟨-, -, ⟨-, hfirst⟩ | ⟨-, hnext⟩⟩ := resolveCode_next h
  · obtain ⟨-, rfl⟩ | ⟨x, -, rfl⟩ := resolveFirst_next hfirst
    all_goals exact ⟨rfl, rfl⟩
  · obtain ⟨n, -, ⟨-, rfl⟩ | ⟨-, -, rfl⟩ | ⟨fc, y, -, -, -, -, -, rfl⟩⟩ := resolveNext_next hnext
    all_goals exact ⟨rfl, rfl⟩

/-- Settles O49, by the kind of the instruction. -/
theorem counterWriters : Obligations.CounterWriters := by
  unfold Obligations.CounterWriters
  intro i s t h
  show ChangesOnlyAsWriter i s t
  cases i with
  | cStart | cNameb | cNameend | cHdrend | cFbegin | cData | cFend | cFinish | dStart | dName | dFile
  | dFinish => exact command_changesOnlyAsWriter rfl h
  | abort => exact changesOnlyAsWriter_of_start (by simp)
  | illegalOp0 | illegalOpE | illegalOpF => exact .kept (illegalWord_counters h)
  | bcWrite | bcRead | bcWclr | bcRclr | dictReset | dictAlloc | dictElookup | dictEinsert | dictDlookup
  | dictDinsert | uopReserved => exact .kept (microOperation_counters rfl h)
  | sent =>
    obtain ⟨-, -, -, rfl⟩ := execSent_next h
    exact changesOnlyAsWriter_of_fidx (by simp) rfl
  | lit | dyn => exact .kept (resolveCode_counters h)

end Sys2Proof.Proofs.Counters

/-! The invariant along every step (`Inv`, Sys2Proof/Safety.lean): one lemma for each operation that the moves of
the core are made of, then one for each rule of a command and for each micro-step. -/

namespace Sys2Proof.Proofs.Invariant

open Sys2Proof.Machine Sys2Proof.Proofs.Moves

variable {s t : State}

/-! ### What the mode says under the invariant -/

theorem sbuf_eq_nil (h : Inv s) (hc : s.mode ≠ .cfile) (hf : s.mode ≠ .fault) : s.sbuf = [] := by
  by_contra hs
  exact (h.matchMode hs).elim hc hf

theorem nameOpen_eq_false (h : Inv s) (hc : s.mode ≠ .chdr) (hf : s.mode ≠ .fault) : s.nameOpen = false :=
  Bool.eq_false_iff.mpr fun ho => (h.nameOpenMode ho).elim hc hf

theorem lineOpen_eq_false (h : Inv s) (hd : s.mode = .dhdr → s.busy = false) (hf : s.mode ≠ .fault) :
    s.lineOpen = false :=
  Bool.eq_false_iff.mpr fun ho =>
    (h.lineOpenMode ho).elim (fun ⟨hm, hb⟩ => Bool.false_ne_true ((hd hm).symm.trans hb)) hf

theorem fcode_eq_none (h : Inv s) (hf : s.mode ≠ .fault) : s.fcode = .none :=
  not_not.mp fun hc => hf (h.faultMode.mpr hc)

/-! ### Fault entry and reset -/

theorem inv_raise {f : FCode} (hf : f ≠ .none) (w : Word) (j : FInfo) (h : Inv s) : Inv (raise f w j s) :=
  { h with
    wbufHeader := by simp
    segmentNamed := by simp
    bodyNamed := by simp [Mode.inBody]
    busyMode := by simp
    dfileBusy := by simp
    matchMode := by simp
    curPresent := by simp
    firstEmpty := by simp
    faultMode := by simp [hf]
    faultClear := by simp [hf]
    nameOpenMode := by simp
    lineOpenMode := by simp }

theorem inv_countError (op : Nat) (h : Inv s) : Inv (countError op s) := inv_raise (by decide) _ _ h

theorem inv_resetRegisters (h : Inv s) : Inv (resetRegisters s) where
  memWf := h.memWf
  nextLow := by simp
  dense := by simp; omega
  wbuf := by simp
  wbufHeader := by simp
  rbuf := by simp
  counts := by simp
  segmentNamed := by simp
  bodyNamed := by simp [Mode.inBody]
  busyMode := by simp
  dfileBusy := by simp
  matchMode := by simp
  matchPrefixes := by simp; omega
  curLength := by simp
  curPresent := by simp
  firstEmpty := by simp
  faultMode := by simp
  faultClear := by simp
  nameOpenMode := by simp
  lineOpenMode := by simp
  noUop := h.noUop

/-! ### The dictionary -/

/-- A match of at most one byte asks for no dynamic entry. -/
theorem matchPrefixes_of_short (hs : s.sbuf.length ≤ 1) :
    ∀ k, 2 ≤ k → k ≤ s.sbuf.length → ∃ c, Holds s c (s.sbuf.take k) := by
  intro k hk hle
  omega

/-- A new epoch has no dynamic entry yet (R72). -/
theorem inv_dictReset (hs : s.sbuf.length ≤ 1) (h : Inv s) : Inv (dictReset s) :=
  { h with
    nextLow := by simp
    dense := by simp; omega
    matchPrefixes := matchPrefixes_of_short (s := dictReset s) hs
    firstEmpty := by simp }

theorem dictAlloc_fst (s : State) : (dictAlloc s).1 = 256#12 ∨ (dictAlloc s).1 = s.nextCode := by
  obtain ⟨-, e⟩ | ⟨-, e⟩ := dictAlloc_cases s
  all_goals rw [e]
  · exact .inl rfl
  · exact .inr rfl

/-- An allocation starts a new epoch or leaves NEXT as it is (R74). -/
theorem inv_allocated {n : Code} (hn : n = 256#12 ∨ n = s.nextCode) (hs : s.sbuf.length ≤ 1) (h : Inv s) :
    Inv { s with nextCode := n } := by
  obtain rfl | rfl := hn
  · exact inv_dictReset hs h
  · exact h

theorem withInserted_nextCode {n : Code} (hn : n.toNat ≤ 4094) (x : Bytes) :
    (withInserted n x s).nextCode.toNat = n.toNat + 1 :=
  code_toNat_ofNat_lt (by omega)

theorem withInserted_entry (n : Code) (x : Bytes) :
    (withInserted n x s).entry = memWrite n.toNat x s.entry := rfl

/-- An insertion adds one entry of an admitted length to the epoch (R76, R78). -/
theorem inv_withInserted {n : Code} {x : Bytes} (hs : s.sbuf.length ≤ 1)
    (hd : s.mode = .dfile → s.dstate ≠ .first) (hi : insertable n x s = true) (h : Inv s) :
    Inv (withInserted n x s) := by
  obtain ⟨rfl, hlow, hhigh, hshort, hlong⟩ := (insertable_iff _ _ _).mp hi
  have hnext := withInserted_nextCode (s := s) hhigh x
  exact { h with
    memWf := memWrite_wf _ _ h.memWf
    nextLow := by rw [hnext]; exact Nat.le_succ_of_le hlow
    dense := by
      intro c hc hlt
      rw [hnext] at hlt
      rw [withInserted_entry]
      by_cases hcn : c = s.nextCode.toNat
      · rw [hcn, memRead_memWrite_same _ _ h.memWf]
        exact ⟨hshort, hlong⟩
      · rw [memRead_memWrite_other _ hcn]
        exact h.dense c hc (by omega)
    matchPrefixes := matchPrefixes_of_short (s := withInserted _ x s) hs
    firstEmpty := fun hm hf => absurd hf (hd hm) }

/-- The string of a code has 1 to MAX_ENTRY_LEN bytes (R24, R30). -/
theorem dictDlookup_length {r : Code} {x : Bytes} (h : Inv s) (hx : dictDlookup r s = some x) :
    x ≠ [] ∧ x.length ≤ 3841 := by
  obtain ⟨-, e⟩ | ⟨hlow, hlt, e⟩ | ⟨-, -, e⟩ := dictDlookup_cases r s
  all_goals rw [e] at hx; cases hx
  · exact ⟨by simp [literalString], by simp [literalString]⟩
  · obtain ⟨hshort, hlong⟩ := h.dense _ hlow hlt
    exact ⟨List.ne_nil_of_length_pos (by omega), hlong⟩

/-! ### The bit buffers -/

theorem inv_bcWclr (h : Inv s) : Inv (bcWclr s) :=
  { h with
    wbuf := by simp
    wbufHeader := by simp }

theorem inv_bcRclr (h : Inv s) : Inv (bcRclr s) :=
  { h with
    rbuf := by simp }

/-- BC_WRITE turns WCNT between 0 and 4 (R21). -/
theorem inv_bcWrite {c : Code} (hm : s.mode ≠ .chdr) (h : Inv s) : Inv (bcWrite c s) :=
  { h with
    wbuf := by
      refine ⟨?_, bcWrite_wbits_lt c s⟩
      have hcnt := bcWrite_wcnt c s
      obtain ⟨hw | hw, -⟩ := h.wbuf
      · rw [hw] at hcnt
        exact .inr (BitVec.eq_of_toNat_eq hcnt)
      · rw [hw] at hcnt
        exact .inl (BitVec.eq_of_toNat_eq hcnt)
    wbufHeader := fun hc => absurd hc hm }

/-- The loop of BC_READ goes by whole bytes, stops below 20 bits and keeps the bits at or above its count 0. -/
theorem pullBytes_bounds {bs rest : Bytes} : ∀ {acc n acc' n' : Nat}, n % 4 = 0 → n < 20 → acc < 2 ^ n →
    pullBytes acc n bs = (acc', n', rest) → n' % 4 = 0 ∧ n' < 20 ∧ acc' < 2 ^ n' := by
  induction bs with
  | nil =>
    intro acc n acc' n' h4 hn ha h
    cases h
    exact ⟨h4, hn, ha⟩
  | cons b bs ih =>
    intro acc n acc' n' h4 hn ha h
    by_cases hfull : 12 ≤ n
    · rw [pullBytes_full hfull] at h
      cases h
      exact ⟨h4, hn, ha⟩
    · rw [pullBytes_step (by omega)] at h
      have hb := b.isLt
      refine ih (by omega) (by omega) ?_ h
      rw [Nat.pow_add]
      omega

/-- RCNT is 0, 4 or 8, and RBITS has no bit at or above it (R22). -/
def RbufBounds (rbits : BitVec 12) (rcnt : BitVec 4) : Prop :=
  (rcnt = 0#4 ∨ rcnt = 4#4 ∨ rcnt = 8#4) ∧ rbits.toNat < 2 ^ rcnt.toNat

theorem rbufBounds_ofNat {a n : Nat} (h4 : n % 4 = 0) (hn : n < 12) (ha : a < 2 ^ n) :
    RbufBounds (BitVec.ofNat 12 a) (BitVec.ofNat 4 n) := by
  have hle : (BitVec.ofNat 12 a).toNat ≤ a := by
    rw [BitVec.toNat_ofNat]
    exact Nat.mod_le _ _
  obtain rfl | rfl | rfl : n = 0 ∨ n = 4 ∨ n = 8 := by omega
  · exact ⟨.inl rfl, Nat.lt_of_le_of_lt hle ha⟩
  · exact ⟨.inr (.inl rfl), Nat.lt_of_le_of_lt hle ha⟩
  · exact ⟨.inr (.inr rfl), Nat.lt_of_le_of_lt hle ha⟩

/-- BC_READ leaves RCNT and RBITS in their bounds, whether it answers a code or EXHAUSTED. -/
theorem rbufBounds_bcRead (h : RbufBounds s.rbits s.rcnt) : RbufBounds (bcRead s).2.rbits (bcRead s).2.rcnt := by
  obtain ⟨hcnt, hbits⟩ := h
  have hcnt4 : s.rcnt.toNat % 4 = 0 := by
    obtain e | e | e := hcnt
    all_goals rw [e]; rfl
  have hcnt20 : s.rcnt.toNat < 20 := by omega
  rw [bcRead]
  rcases hp : pullBytes s.rbits.toNat s.rcnt.toNat s.ain with ⟨acc, n, rest⟩
  obtain ⟨h4, hn, ha⟩ := pullBytes_bounds hcnt4 hcnt20 hbits hp
  dsimp only [codeWidth_eq]
  split
  · rename_i hlt
    exact rbufBounds_ofNat h4 hlt ha
  · rename_i hge
    exact rbufBounds_ofNat (by omega) (by omega) (Nat.mod_lt _ (Nat.two_pow_pos _))

theorem inv_bcRead (h : Inv s) : Inv (bcRead s).2 := by
  have hr := rbufBounds_bcRead h.rbuf
  obtain ⟨bs, rb, rc, e⟩ := bcRead_frame s
  rw [e] at hr ⊢
  exact { h with rbuf := hr }

/-! ### Entering a mode -/

/-- No fault, no match, and no open name line. -/
def Clean (s : State) : Prop :=
  s.fcode = .none ∧ s.sbuf = [] ∧ s.nameOpen = false ∧ s.lineOpen = false

theorem clean_of_mode {m : Mode} (h : Inv s) (hm : s.mode = m) (hm' : m ≠ .fault ∧ m ≠ .cfile ∧ m ≠ .chdr)
    (hd : m = .dhdr → s.busy = false) : Clean s := by
  subst hm
  obtain ⟨hf, hc, hn⟩ := hm'
  exact ⟨fcode_eq_none h hf, sbuf_eq_nil h hc hf, nameOpen_eq_false h hn hf, lineOpen_eq_false h hd hf⟩

/-- A clean state may enter any mode but FAULT and DFILE, with BUSY = 0 and the counters that the mode asks
for (R13 to R18). -/
theorem inv_enter {m : Mode} {b : Bool} {n i : BitVec 32} (h : Inv s) (hclean : Clean s) (hb : b = false)
    (hm : m ≠ .fault ∧ m ≠ .dfile) (hheader : m = .chdr → s.wcnt = 0#3) (hcounts : i.toNat ≤ n.toNat)
    (hsegment : m = .cfile → i.toNat < n.toNat) (hbody : m.inBody = true → n ≠ 0#32) :
    Inv { s with mode := m, busy := b, nfiles := n, fidx := i } := by
  obtain ⟨hfcode, hsbuf, hname, hline⟩ := hclean
  obtain ⟨hfault, hdfile⟩ := hm
  exact { h with
    wbufHeader := hheader
    counts := hcounts
    segmentNamed := by simpa [hdfile] using hsegment
    bodyNamed := hbody
    busyMode := by simp [hb]
    dfileBusy := by simp [hdfile]
    matchMode := by simp [hsbuf]
    curPresent := by simp [hdfile]
    firstEmpty := by simp [hdfile]
    faultMode := by simp [hfault, hfcode]
    nameOpenMode := by simp [hname]
    lineOpenMode := by simp [hline] }

theorem inv_clearMatch (h : Inv s) : Inv { s with sbuf := [] } :=
  { h with
    matchMode := by simp
    matchPrefixes := matchPrefixes_of_short (s := { s with sbuf := [] }) (by simp) }

theorem toNat_succ {n : BitVec 32} (h : n.toNat < 2 ^ 32 - 1) : (n + 1).toNat = n.toNat + 1 := by
  rw [BitVec.toNat_add]
  exact Nat.mod_eq_of_lt (by simp; omega)

/-- One more segment of an archive that still has a name for it (R16). -/
theorem toNat_fidx_succ_le (hlt : s.fidx.toNat < s.nfiles.toNat) : (s.fidx + 1).toNat ≤ s.nfiles.toNat := by
  have hn := s.nfiles.isLt
  rw [toNat_succ (by omega)]
  exact hlt

/-- One more name, where the count is not full (R15). -/
theorem fidx_le_nfiles_succ (hfull : countFull s ≠ true) (h : Inv s) :
    s.fidx.toNat ≤ (s.nfiles + 1).toNat := by
  have hn := s.nfiles.isLt
  simp only [countFull, countWidth_eq, ne_eq, decide_eq_true_eq] at hfull
  rw [toNat_succ (by omega)]
  exact Nat.le_succ_of_le h.counts

/-! ### The rules of the compress commands -/

theorem inv_openCompress (hb : s.busy = false) (hm : s.mode = .idle) (h : Inv s)
    (e : openCompress s = .next t) : Inv t := by
  obtain ⟨hfcode, hsbuf, hname, hline⟩ := clean_of_mode h hm (by decide) nofun
  cases e
  have hu := inv_clearMatch (inv_dictReset (s := bcWclr s) (by simp [hsbuf]) (inv_bcWclr h))
  have hv : Inv { dictReset (bcWclr s) with
    nameOpen := false, tailDrop := false, truncSent := false, sbuf := [] } := { hu with nameOpenMode := by simp }
  exact inv_enter hv ⟨hfcode, rfl, rfl, hline⟩ hb (by decide) (fun _ => rfl) (Nat.le_refl _) nofun nofun

theorem inv_nameByte {b : Byte} (hm : s.mode = .chdr) (h : Inv s) (e : nameByte b s = .next t) : Inv t := by
  obtain ⟨-, rfl⟩ | ⟨-, rfl⟩ := nameByte_next e
  · exact inv_raise (by decide) _ _ h
  · exact { h with nameOpenMode := fun _ => .inl hm }

theorem inv_nameEnd (hm : s.mode = .chdr) (h : Inv s) (e : nameEnd s = .next t) : Inv t := by
  obtain ⟨-, rfl⟩ | ⟨-, -, rfl⟩ | ⟨-, hfull, rfl⟩ := nameEnd_next e
  · exact inv_raise (by decide) _ _ h
  · exact inv_countError _ h
  · exact { h with
      counts := fidx_le_nfiles_succ hfull h
      segmentNamed := by simp [hm]
      bodyNamed := by simp [hm, Mode.inBody]
      nameOpenMode := by simp }

theorem inv_headerEnd (hb : s.busy = false) (hm : s.mode = .chdr) (h : Inv s) (e : headerEnd s = .next t) :
    Inv t := by
  obtain ⟨-, rfl⟩ | ⟨-, -, rfl⟩ | ⟨hname, hn, rfl⟩ := headerEnd_next e
  · exact inv_raise (by decide) _ _ h
  · exact inv_countError _ h
  · have hf : s.mode ≠ .fault := by simp [hm]
    have hclean : Clean s := ⟨fcode_eq_none h hf, sbuf_eq_nil h (by simp [hm]) hf, by simpa using hname,
      lineOpen_eq_false h (fun _ => hb) hf⟩
    exact inv_enter (s := aoutPut _ s) { h with } hclean hb (by decide) nofun (Nat.zero_le _) nofun fun _ => hn

theorem inv_beginSegment (hb : s.busy = false) (hm : s.mode = .cbody) (h : Inv s)
    (e : beginSegment s = .next t) : Inv t := by
  obtain ⟨-, rfl⟩ | ⟨hlt, rfl⟩ := beginSegment_next e
  · exact inv_countError _ h
  · obtain ⟨hfcode, hsbuf, hname, hline⟩ := clean_of_mode h hm (by decide) nofun
    have hu := inv_clearMatch (inv_dictReset (by simp [hsbuf]) h)
    exact inv_enter hu ⟨hfcode, rfl, hname, hline⟩ hb (by decide) nofun h.counts (fun _ => hlt)
      fun _ => h.bodyNamed (by simp [hm, Mode.inBody])

/-- Taking one byte as the match asks nothing of the dictionary (R30). -/
theorem inv_matchByte {b : Byte} (hm : s.mode = .cfile) (h : Inv s) : Inv { s with sbuf := immString b } :=
  { h with
    matchMode := fun _ => .inl hm
    matchPrefixes := matchPrefixes_of_short (s := { s with sbuf := immString b }) (by simp [immString]) }

/-- A match that grows by one byte to a string of the epoch (R82). -/
theorem inv_matchExtend {b : Byte} {k : Code} (hm : s.mode = .cfile) (hs : s.sbuf ≠ [])
    (hk : dictElookup (s.sbuf ++ immString b) s = some k) (h : Inv s) :
    Inv { s with sbuf := s.sbuf ++ immString b } := by
  have hlen : 0 < s.sbuf.length := List.length_pos_iff.mpr hs
  have hlen' : (s.sbuf ++ immString b).length = s.sbuf.length + 1 := by simp [immString]
  exact { h with
    matchMode := fun _ => .inl hm
    matchPrefixes := by
      intro j hj hle
      show ∃ c, Holds s c ((s.sbuf ++ immString b).take j)
      obtain hlt | heq : j ≤ s.sbuf.length ∨ j = (s.sbuf ++ immString b).length := by
        simp only at hle
        omega
      · rw [List.take_append_of_le_length hlt]
        exact h.matchPrefixes j hj hlt
      · rw [heq, List.take_length]
        exact ⟨_, dictElookup_holds h.memWf (by omega) hk⟩ }

theorem inv_emitAndInsert {b : Byte} (hm : s.mode = .cfile) (h : Inv s)
    (e : emitAndInsert (immString b) s = .next t) : Inv t := by
  obtain ⟨k, n, -, hn, hi, rfl⟩ := emitAndInsert_next e
  have hshort : (immString b).length ≤ 1 := Nat.le_refl 1
  have hu : Inv { bcWrite k s with sbuf := immString b } :=
    inv_matchByte (s := bcWrite k s) hm (inv_bcWrite (by simp [hm]) h)
  have hv : Inv { bcWrite k s with sbuf := immString b, nextCode := n } :=
    inv_allocated (s := { bcWrite k s with sbuf := immString b }) (hn ▸ dictAlloc_fst (bcWrite k s)) hshort hu
  exact inv_withInserted (s := { bcWrite k s with sbuf := immString b, nextCode := n }) hshort (by simp [hm]) hi hv

theorem inv_encodeByte {b : Byte} (hm : s.mode = .cfile) (h : Inv s) (e : encodeByte b s = .next t) :
    Inv t := by
  obtain ⟨-, rfl⟩ | ⟨hs, ⟨k, hk⟩, rfl⟩ | ⟨-, -, hemit⟩ := encodeByte_next e
  · exact inv_matchByte hm h
  · exact inv_matchExtend hm hs hk h
  · exact inv_emitAndInsert hm h hemit

theorem inv_closeSegment (hb : s.busy = false) (hm : s.mode = .cfile) (h : Inv s) : Inv (closeSegment s) := by
  have hf : s.mode ≠ .fault := by simp [hm]
  have hc : s.mode ≠ .chdr := by simp [hm]
  have hfcode := fcode_eq_none h hf
  have hname := nameOpen_eq_false h hc hf
  have hline := lineOpen_eq_false h (fun _ => hb) hf
  exact inv_enter (inv_clearMatch (inv_bcWrite hc h)) ⟨hfcode, rfl, hname, hline⟩ hb (by decide) nofun
    (toNat_fidx_succ_le (h.segmentNamed (.inl hm))) nofun fun _ => h.bodyNamed (by simp [hm, Mode.inBody])

theorem inv_endSegment (hb : s.busy = false) (hm : s.mode = .cfile) (h : Inv s) (e : endSegment s = .next t) :
    Inv t := by
  obtain ⟨-, rfl⟩ | ⟨-, k, -, rfl⟩ := endSegment_next e
  · exact inv_closeSegment hb hm h
  · exact inv_closeSegment (s := bcWrite k s) hb hm (inv_bcWrite (by simp [hm]) h)

theorem inv_closeCompress (hb : s.busy = false) (hm : s.mode = .cbody) (h : Inv s)
    (e : closeCompress s = .next t) : Inv t := by
  obtain ⟨-, rfl⟩ | ⟨-, rfl⟩ := closeCompress_next e
  · exact inv_countError _ h
  · have hclean := clean_of_mode h hm (by decide) nofun
    exact inv_enter (s := { s with tailDrop := tailDropOf s }) { h with } hclean hb (by decide) nofun h.counts
      nofun nofun

/-! ### The rules of the decompress commands -/

theorem inv_openDecompress (hb : s.busy = false) (hm : s.mode = .idle) (h : Inv s)
    (e : openDecompress s = .next t) : Inv t := by
  obtain ⟨hfcode, hsbuf, hname, hline⟩ := clean_of_mode h hm (by decide) nofun
  cases e
  have hu := inv_dictReset (s := bcRclr s) (by simp [hsbuf]) (inv_bcRclr h)
  have hv : Inv { dictReset (bcRclr s) with
      lineOpen := false, tailDrop := false, truncSent := false, curCode := 0#12, curStr := [], dstate := .first } :=
    { hu with
      curLength := by simp
      curPresent := by simp
      firstEmpty := fun _ _ => rfl
      lineOpenMode := by simp }
  exact inv_enter hv ⟨hfcode, hsbuf, hname, rfl⟩ hb (by decide) nofun (Nat.le_refl _) nofun nofun

theorem inv_acceptName (hb : s.busy = false) (hm : s.mode = .dhdr) (h : Inv s) (e : acceptName s = .next t) :
    Inv t := by
  have hline := lineOpen_eq_false h (fun _ => hb) (by simp [hm])
  cases e
  exact { h with
    busyMode := fun _ => .inl hm
    dfileBusy := fun _ => rfl
    lineOpenMode := by simp [hline] }

theorem inv_acceptFile (hm : s.mode = .dbody) (h : Inv s) (e : acceptFile s = .next t) : Inv t := by
  obtain ⟨-, rfl⟩ | ⟨hlt, rfl⟩ := acceptFile_next e
  · exact inv_countError _ h
  · obtain ⟨hfcode, hsbuf, hname, hline⟩ := clean_of_mode h hm (by decide) nofun
    have hu := inv_dictReset (by simp [hsbuf]) h
    exact { hu with
      wbufHeader := nofun
      segmentNamed := fun _ => hlt
      bodyNamed := fun _ => h.bodyNamed (by simp [hm, Mode.inBody])
      busyMode := fun _ => .inr rfl
      dfileBusy := fun _ => rfl
      matchMode := by simp [hsbuf]
      curPresent := fun _ hd => absurd rfl hd
      firstEmpty := fun _ _ => rfl
      faultMode := by simp [hfcode]
      nameOpenMode := by simp [hname]
      lineOpenMode := by simp [hline] }

theorem inv_closeDecompress (hb : s.busy = false) (hm : s.mode = .dbody) (h : Inv s)
    (e : closeDecompress s = .next t) : Inv t := by
  obtain ⟨-, rfl⟩ | ⟨-, rfl⟩ := closeDecompress_next e
  · exact inv_countError _ h
  · exact inv_enter h (clean_of_mode h hm (by decide) nofun) hb (by decide) nofun h.counts nofun nofun

/-! ### The micro-steps -/

theorem inv_dnStep (hb : s.busy = true) (hm : s.mode = .dhdr) (h : Inv s) : Inv (dnStep s) := by
  have hf : s.mode ≠ .fault := by simp [hm]
  have hc : s.mode ≠ .chdr := by simp [hm]
  cases hain : s.ain with
  | nil =>
    rw [dnStep_nil hain]
    exact inv_raise (by decide) _ _ h
  | cons b rest =>
    have hu : Inv { s with ain := rest } := { h with }
    obtain ⟨-, e⟩ | ⟨-, -, -, e⟩ | ⟨-, -, hfull, e⟩ | ⟨-, -, -, e⟩ | ⟨-, hline, hn, e⟩ := dnStep_cons hain
    all_goals rw [e]
    · exact { h with lineOpenMode := fun _ => .inl ⟨hm, hb⟩ }
    · exact inv_countError _ hu
    · exact { h with
        counts := fidx_le_nfiles_succ hfull h
        segmentNamed := by simp [hm]
        bodyNamed := by simp [hm, Mode.inBody]
        busyMode := nofun
        dfileBusy := by simp [hm]
        lineOpenMode := nofun }
    · exact inv_countError _ hu
    · have hclean : Clean s := ⟨fcode_eq_none h hf, sbuf_eq_nil h (by simp [hm]) hf, nameOpen_eq_false h hc hf,
        by simpa using hline⟩
      exact inv_enter (s := doutPut _ { s with ain := rest }) { h with } hclean rfl (by decide) nofun
        (Nat.zero_le _) nofun fun _ => hn

theorem inv_segEnd (hm : s.mode = .dfile) (h : Inv s) : Inv (segEnd s) := by
  have hclean := clean_of_mode h hm (by decide) nofun
  have hu := inv_enter (m := .dbody) (i := s.fidx + 1) h hclean rfl (by decide) nofun
    (toNat_fidx_succ_le (h.segmentNamed (.inr hm))) nofun fun _ => h.bodyNamed (by simp [hm, Mode.inBody])
  exact { hu with
    curPresent := nofun
    firstEmpty := nofun }

theorem inv_exhaust (hm : s.mode = .dfile) (h : Inv s) : Inv (exhaust s) := by
  obtain ⟨-, e⟩ | ⟨-, e⟩ := exhaust_cases s
  all_goals rw [e]
  · exact inv_segEnd hm { h with }
  · exact inv_raise (by decide) _ _ h

theorem inv_dsEmit (hd : s.dstate = .emit) (h : Inv s) : Inv (dsEmit s) :=
  { h with
    curPresent := fun hm _ => h.curPresent hm (by simp [hd])
    firstEmpty := nofun }

theorem inv_setCurrent {r : Code} {x : Bytes} (hx : x ≠ [] ∧ x.length ≤ 3841) (h : Inv s) :
    Inv (setCurrent r x s) :=
  { h with
    curLength := hx.2
    curPresent := fun _ _ => hx.1
    firstEmpty := nofun }

theorem inv_resolveFirst {r : Code} (h : Inv s) (e : resolveFirst r s = .next t) : Inv t := by
  obtain ⟨-, rfl⟩ | ⟨x, hx, rfl⟩ := resolveFirst_next e
  · exact inv_raise (by decide) _ _ h
  · exact inv_setCurrent (dictDlookup_length h hx) h

theorem inv_resolveNext {r : Code} (hm : s.mode = .dfile) (hd : s.dstate = .next) (h : Inv s)
    (e : resolveNext r s = .next t) : Inv t := by
  have hs : s.sbuf.length ≤ 1 := by simp [sbuf_eq_nil h (by simp [hm]) (by simp [hm])]
  obtain ⟨n, hn, hcase⟩ := resolveNext_next e
  have hu : Inv { s with nextCode := n } := inv_allocated (hn ▸ dictAlloc_fst s) hs h
  obtain ⟨-, rfl⟩ | ⟨-, -, rfl⟩ | ⟨fc, y, -, -, -, hi, hy, rfl⟩ := hcase
  · exact inv_raise (by decide) _ _ hu
  · exact inv_raise (by decide) _ _ hu
  · have hv : Inv (withInserted n (s.curStr ++ [fc]) s) :=
      inv_withInserted (s := { s with nextCode := n }) hs (fun _ => by simp [hd]) hi hu
    exact inv_setCurrent (dictDlookup_length hv hy) hv

theorem inv_resolveCode {r : Code} (h : Inv s) (e : resolveCode r s = .next t) : Inv t := by
  obtain ⟨-, hm, ⟨-, hfirst⟩ | ⟨hd, hnext⟩⟩ := resolveCode_next e
  · exact inv_resolveFirst h hfirst
  · exact inv_resolveNext hm hd h hnext

theorem inv_exec_decodeCode {c : Code} (h : Inv s) (e : exec (decodeCode c) s = .next t) : Inv t := by
  obtain hc | ⟨d, hc⟩ | hc := decodeCode_cases c
  all_goals rw [hc] at e
  · obtain ⟨-, hm, -, rfl⟩ := execSent_next e
    exact inv_segEnd hm h
  · exact inv_resolveCode h e
  · exact inv_resolveCode h e

/-! ### The commands and the step -/

/-- The one mode that admits an opcode other than ABORT's (R97). -/
def modeOfOp : Nat → Mode
  | 0x1 | 0x9 => .idle
  | 0x2 | 0x3 | 0x4 => .chdr
  | 0x5 | 0x8 => .cbody
  | 0x6 | 0x7 => .cfile
  | 0xA => .dhdr
  | _ => .dbody

theorem mode_of_legal {m : Mode} {op : Nat} (hop : op ≠ 0xD) (hl : legal m op = true) : m = modeOfOp op := by
  have hmem : op ∈ legalOps m := by simpa [legal] using hl
  cases m with
  | idle | cbody | cfile | dbody =>
    simp only [legalOps, List.mem_cons, List.not_mem_nil, or_false] at hmem
    obtain rfl | rfl | rfl := hmem
    · rfl
    · rfl
    · exact absurd rfl hop
  | chdr =>
    simp only [legalOps, List.mem_cons, List.not_mem_nil, or_false] at hmem
    obtain rfl | rfl | rfl | rfl := hmem
    · rfl
    · rfl
    · rfl
    · exact absurd rfl hop
  | dhdr =>
    simp only [legalOps, List.mem_cons, List.not_mem_nil, or_false] at hmem
    obtain rfl | rfl := hmem
    · rfl
    · exact absurd rfl hop
  | dfile | fault => exact absurd (List.mem_singleton.mp hmem) hop

/-- The rule of a command, in the mode that admits it. -/
theorem inv_rule {i : Instr} {r : Rule} (hr : ruleOf i = some r) (hb : s.busy = false)
    (hm : s.mode = modeOfOp r.op) (h : Inv s) (e : r.body s = .next t) : Inv t := by
  cases i with
  | cStart => cases hr; exact inv_openCompress hb hm h e
  | cNameb b => cases hr; exact inv_nameByte hm h e
  | cNameend => cases hr; exact inv_nameEnd hm h e
  | cHdrend => cases hr; exact inv_headerEnd hb hm h e
  | cFbegin => cases hr; exact inv_beginSegment hb hm h e
  | cData b => cases hr; exact inv_encodeByte hm h e
  | cFend => cases hr; exact inv_endSegment hb hm h e
  | cFinish => cases hr; exact inv_closeCompress hb hm h e
  | dStart => cases hr; exact inv_openDecompress hb hm h e
  | dName => cases hr; exact inv_acceptName hb hm h e
  | dFile => cases hr; exact inv_acceptFile hm h e
  | dFinish => cases hr; exact inv_closeDecompress hb hm h e
  | abort | illegalOp0 | illegalOpE | illegalOpF | bcWrite | bcRead | bcWclr | bcRclr | dictReset | dictAlloc
  | dictElookup | dictEinsert | dictDlookup | dictDinsert | uopReserved | sent | lit | dyn => cases hr

theorem ruleOf_op_ne_abort {i : Instr} {r : Rule} (hr : ruleOf i = some r) : r.op ≠ 0xD := by
  cases i with
  | cStart | cNameb | cNameend | cHdrend | cFbegin | cData | cFend | cFinish | dStart | dName | dFile
  | dFinish =>
    cases hr
    simp
  | abort | illegalOp0 | illegalOpE | illegalOpF | bcWrite | bcRead | bcWclr | bcRclr | dictReset | dictAlloc
  | dictElookup | dictEinsert | dictDlookup | dictDinsert | uopReserved | sent | lit | dyn => cases hr

theorem inv_command {i : Instr} {r : Rule} (hr : ruleOf i = some r) (h : Inv s) (e : exec i s = .next t) :
    Inv t := by
  rw [exec_of_ruleOf hr] at e
  obtain ⟨hb, ⟨-, rfl⟩ | ⟨-, hl, hbody⟩ | ⟨-, -, rfl⟩⟩ := command_next e
  · exact h
  · exact inv_rule hr hb (mode_of_legal (ruleOf_op_ne_abort hr) hl) h hbody
  · exact inv_raise (by decide) _ _ h

theorem inv_illegalWord {w : Word} (h : Inv s) (e : illegalWord w s = .next t) : Inv t := by
  obtain ⟨-, ⟨-, rfl⟩ | ⟨-, rfl⟩⟩ := illegalWord_next e
  · exact h
  · exact inv_raise (by decide) _ _ h

/-- Every instruction of the command port keeps the invariant: a command, ABORT, or an illegal word. -/
theorem inv_exec_decodeCmd {w : Word} {i : Instr} (hd : decodeCmd w = .ok i) (h : Inv s)
    (e : exec i s = .next t) : Inv t := by
  have henc := encode_of_decodeCmd hd
  cases i with
  | cStart | cNameb | cNameend | cHdrend | cFbegin | cData | cFend | cFinish | dStart | dName | dFile
  | dFinish => exact inv_command rfl h e
  | abort =>
    obtain ⟨-, rfl⟩ := execAbort_next e
    exact inv_resetRegisters h
  | illegalOp0 | illegalOpE | illegalOpF => exact inv_illegalWord h e
  | bcWrite | bcRead | bcWclr | bcRclr | dictReset | dictAlloc | dictElookup | dictEinsert | dictDlookup
  | dictDinsert | uopReserved | sent | lit | dyn => cases henc

/-- The state that BC_READ leaves. -/
theorem inv_of_bcRead {o : Option Code} {u : State} (hread : bcRead s = (o, u)) (h : Inv s) :
    Inv u ∧ u.mode = s.mode := by
  have hu := inv_bcRead h
  obtain ⟨bs, rb, rc, hframe⟩ := bcRead_frame s
  rw [hread] at hu hframe
  exact ⟨hu, (congrArg State.mode hframe :)⟩

theorem inv_move (h : Inv s) (hmove : Move s t) : Inv t := by
  cases hmove with
  | uop w port run =>
    rw [h.noUop] at port
    cases port
  | name port busy mode eq => exact eq ▸ inv_dnStep busy mode h
  | emit port busy mode dstate eq => exact eq ▸ inv_dsEmit dstate h
  | code port busy mode dstate c u read run => exact inv_exec_decodeCode (inv_of_bcRead read h).1 run
  | exhausted port busy mode dstate u read eq =>
    obtain ⟨hu, hm⟩ := inv_of_bcRead read h
    exact eq ▸ inv_exhaust (hm.trans mode) hu
  | wait port busy cmdq eq => exact eq ▸ h
  | command port busy w rest i cmdq decode run =>
    exact inv_exec_decodeCmd (s := { s with cmdq := rest }) decode { h with } run
  | illegal port busy w rest r cmdq decode run =>
    exact inv_illegalWord (s := { s with cmdq := rest }) { h with } run

/-- Settles O41, by the kind of the move. -/
theorem stepKeepsTheInvariant : Obligations.StepKeepsTheInvariant := by
  unfold Obligations.StepKeepsTheInvariant
  exact fun s t h e => inv_move h (move_of_step e)

end Sys2Proof.Proofs.Invariant

/-! Which dictionary entry an instruction writes (20_memory.md R31, R33). -/

namespace Sys2Proof.Proofs.Entries

open Sys2Proof.Machine Sys2Proof.Proofs.Moves Sys2Proof.Proofs.Invariant

variable {i : Instr} {s t : State}

/-- The move from s to t writes no entry; it leaves NEXT alone or starts a new epoch. -/
def KeepsEntries (s t : State) : Prop :=
  t.entry = s.entry ∧ (t.nextCode = s.nextCode ∨ t.nextCode = 256#12)

/-- The move from s to t writes no entry, or the one entry at an assignable code, which NEXT then follows. -/
def WritesAllocatedEntry (s t : State) : Prop :=
  t.entry = s.entry ∨ ∃ n x, 256 ≤ n ∧ n ≤ 4094 ∧ t.entry = memWrite n x s.entry ∧ t.nextCode.toNat = n + 1

/-- The rule of a command other than C_DATA. -/
theorem rule_keepsEntries {r : Rule} (hr : ruleOf i = some r) (hi : ∀ b, i ≠ .cData b)
    (h : r.body s = .next t) : KeepsEntries s t := by
  cases i with
  | cStart | dStart =>
    cases hr
    cases h
    exact ⟨rfl, .inr rfl⟩
  | dName =>
    cases hr
    cases h
    exact ⟨rfl, .inl rfl⟩
  | cNameb b =>
    cases hr
    obtain ⟨-, rfl⟩ | ⟨-, rfl⟩ := nameByte_next h
    all_goals exact ⟨rfl, .inl rfl⟩
  | cNameend =>
    cases hr
    obtain ⟨-, rfl⟩ | ⟨-, -, rfl⟩ | ⟨-, -, rfl⟩ := nameEnd_next h
    all_goals exact ⟨rfl, .inl rfl⟩
  | cHdrend =>
    cases hr
    obtain ⟨-, rfl⟩ | ⟨-, -, rfl⟩ | ⟨-, -, rfl⟩ := headerEnd_next h
    all_goals exact ⟨rfl, .inl rfl⟩
  | cFbegin =>
    cases hr
    obtain ⟨-, rfl⟩ | ⟨-, rfl⟩ := beginSegment_next h
    · exact ⟨rfl, .inl rfl⟩
    · exact ⟨rfl, .inr rfl⟩
  | cData b => exact absurd rfl (hi b)
  | cFend =>
    cases hr
    obtain ⟨-, rfl⟩ | ⟨-, k, -, rfl⟩ := endSegment_next h
    all_goals exact ⟨rfl, .inl rfl⟩
  | cFinish =>
    cases hr
    obtain ⟨-, rfl⟩ | ⟨-, rfl⟩ := closeCompress_next h
    all_goals exact ⟨rfl, .inl rfl⟩
  | dFile =>
    cases hr
    obtain ⟨-, rfl⟩ | ⟨-, rfl⟩ := acceptFile_next h
    · exact ⟨rfl, .inl rfl⟩
    · exact ⟨rfl, .inr rfl⟩
  | dFinish =>
    cases hr
    obtain ⟨-, rfl⟩ | ⟨-, rfl⟩ := closeDecompress_next h
    all_goals exact ⟨rfl, .inl rfl⟩
  | abort | illegalOp0 | illegalOpE | illegalOpF | bcWrite | bcRead | bcWclr | bcRclr | dictReset | dictAlloc
  | dictElookup | dictEinsert | dictDlookup | dictDinsert | uopReserved | sent | lit | dyn => cases hr

/-- An insertion writes the entry at its code (R76, R78); no other field matters. -/
theorem writesAllocatedEntry_of_insertable {n : Code} {x : Bytes} {u : State} (hi : insertable n x u = true)
    (hentry : t.entry = (withInserted n x s).entry) (hnext : t.nextCode = (withInserted n x s).nextCode) :
    WritesAllocatedEntry s t := by
  obtain ⟨-, hlow, hhigh, -, -⟩ := (insertable_iff _ _ _).mp hi
  exact .inr ⟨_, x, hlow, hhigh, hentry, hnext ▸ withInserted_nextCode hhigh x⟩

theorem encodeByte_writesAllocatedEntry {b : Byte} (h : encodeByte b s = .next t) :
    WritesAllocatedEntry s t := by
  obtain ⟨-, rfl⟩ | ⟨-, -, rfl⟩ | ⟨-, -, hemit⟩ := encodeByte_next h
  · exact .inl rfl
  · exact .inl rfl
  · obtain ⟨k, n, -, -, hi, rfl⟩ := emitAndInsert_next hemit
    exact writesAllocatedEntry_of_insertable hi rfl rfl

theorem command_writesAllocatedEntry {r : Rule} (hr : ruleOf i = some r) (h : exec i s = .next t) :
    WritesAllocatedEntry s t := by
  rw [exec_of_ruleOf hr] at h
  obtain ⟨-, ⟨-, rfl⟩ | ⟨-, -, hbody⟩ | ⟨-, -, rfl⟩⟩ := command_next h
  · exact .inl rfl
  · by_cases hi : ∃ b, i = .cData b
    · obtain ⟨b, rfl⟩ := hi
      cases hr
      exact encodeByte_writesAllocatedEntry hbody
    · exact .inl (rule_keepsEntries hr (not_exists.mp hi) hbody).1
  · exact .inl rfl

theorem microOperation_writesAllocatedEntry (hi : microOperation i = true) (h : exec i s = .next t) :
    WritesAllocatedEntry s t := by
  cases i with
  | bcWrite | bcWclr | bcRclr | dictReset | dictElookup | dictDlookup =>
    cases h
    exact .inl rfl
  | bcRead =>
    obtain ⟨bs, rb, rc, hread⟩ := bcRead_frame s
    cases h
    exact .inl (by rw [hread])
  | dictAlloc =>
    cases h
    exact .inl (by rw [dictAlloc_frame])
  | dictEinsert c | dictDinsert c =>
    obtain ⟨hins, rfl⟩ := inserted_insertEntry_next h
    exact writesAllocatedEntry_of_insertable hins rfl rfl
  | uopReserved => cases h
  | cStart | cNameb | cNameend | cHdrend | cFbegin | cData | cFend | cFinish | dStart | dName | dFile | dFinish
  | abort | illegalOp0 | illegalOpE | illegalOpF | sent | lit | dyn => cases hi

theorem resolveCode_writesAllocatedEntry {r : Code} (h : resolveCode r s = .next t) :
    WritesAllocatedEntry s t := by
  obtain ⟨-, -, ⟨-, hfirst⟩ | ⟨-, hnext⟩⟩ := resolveCode_next h
  · obtain ⟨-, rfl⟩ | ⟨x, -, rfl⟩ := resolveFirst_next hfirst
    all_goals exact .inl rfl
  · obtain ⟨n, -, ⟨-, rfl⟩ | ⟨-, -, rfl⟩ | ⟨fc, y, -, -, -, hi, -, rfl⟩⟩ := resolveNext_next hnext
    · exact .inl rfl
    · exact .inl rfl
    · exact writesAllocatedEntry_of_insertable hi rfl rfl

theorem exec_writesAllocatedEntry (h : exec i s = .next t) : WritesAllocatedEntry s t := by
  cases i with
  | cStart | cNameb | cNameend | cHdrend | cFbegin | cData | cFend | cFinish | dStart | dName | dFile
  | dFinish => exact command_writesAllocatedEntry rfl h
  | abort =>
    obtain ⟨-, rfl⟩ := execAbort_next h
    exact .inl rfl
  | illegalOp0 | illegalOpE | illegalOpF =>
    obtain ⟨-, ⟨-, rfl⟩ | ⟨-, rfl⟩⟩ := illegalWord_next h
    all_goals exact .inl rfl
  | bcWrite | bcRead | bcWclr | bcRclr | dictReset | dictAlloc | dictElookup | dictEinsert | dictDlookup
  | dictDinsert | uopReserved => exact microOperation_writesAllocatedEntry rfl h
  | sent =>
    obtain ⟨-, -, -, rfl⟩ := execSent_next h
    exact .inl rfl
  | lit | dyn => exact resolveCode_writesAllocatedEntry h

/-- Settles O51: a code other than the one written reads as before. -/
theorem onlyTheAllocatedEntryIsWritten : Obligations.OnlyTheAllocatedEntryIsWritten := by
  unfold Obligations.OnlyTheAllocatedEntryIsWritten
  intro i s t h c hc
  obtain hentry | ⟨n, x, hlow, hhigh, hentry, hnext⟩ := exec_writesAllocatedEntry h
  · exact absurd (by rw [hentry]) hc
  · have hcn : c = n := by
      by_contra hne
      exact hc (by rw [hentry, memRead_memWrite_other x hne])
    exact hcn ▸ ⟨hlow, hhigh, hnext⟩

end Sys2Proof.Proofs.Entries

/-! In a compress mode no two codes of the epoch hold one string (20_memory.md R35). -/

namespace Sys2Proof.Proofs.DistinctEntries

open Sys2Proof.Machine Sys2Proof.Proofs.Moves Sys2Proof.Proofs.Invariant
  Sys2Proof.Proofs.Entries

variable {s t : State}

/-! ### The epoch's entries -/

/-- An epoch that has just begun holds nothing. -/
theorem not_holds_of_newEpoch (hn : s.nextCode = 256#12) (c : Nat) (x : Bytes) : ¬ Holds s c x := by
  rintro ⟨hlow, hlt, -⟩
  rw [hn] at hlt
  exact absurd hlt (Nat.not_lt.mpr hlow)

theorem distinctEntries_of_newEpoch (hn : s.nextCode = 256#12) : DistinctEntries s :=
  fun c _ x hc => absurd hc (not_holds_of_newEpoch hn c x)

/-- What an epoch with one more entry holds: the new string at the new code, and what it held before. -/
theorem holds_withInserted {n : Code} {x y : Bytes} {c : Nat} (hwf : s.entry.wf = true)
    (hi : insertable n x s = true) (hc : Holds (withInserted n x s) c y) :
    (c = n.toNat ∧ y = x) ∨ Holds s c y := by
  obtain ⟨rfl, -, hhigh, -, -⟩ := (insertable_iff _ _ _).mp hi
  obtain ⟨hlow, hlt, hread⟩ := hc
  rw [withInserted_nextCode hhigh] at hlt
  rw [withInserted_entry] at hread
  by_cases hcn : c = s.nextCode.toNat
  · rw [hcn, memRead_memWrite_same _ _ hwf] at hread
    exact .inl ⟨hcn, hread.symm⟩
  · rw [memRead_memWrite_other _ hcn] at hread
    exact .inr ⟨hlow, by omega, hread⟩

/-- Inserting a string that no code of the epoch holds keeps the entries distinct. -/
theorem distinctEntries_withInserted {n : Code} {x : Bytes} (hwf : s.entry.wf = true)
    (hi : insertable n x s = true) (habsent : ∀ c, ¬ Holds s c x) (hd : DistinctEntries s) :
    DistinctEntries (withInserted n x s) := by
  intro c d y hc hd'
  obtain ⟨hcn, hy⟩ | hc := holds_withInserted hwf hi hc
  · obtain ⟨hdn, -⟩ | hd' := holds_withInserted hwf hi hd'
    · rw [hcn, hdn]
    · exact absurd (hy ▸ hd') (habsent d)
  · obtain ⟨-, hy⟩ | hd' := holds_withInserted hwf hi hd'
    · exact absurd (hy ▸ hc) (habsent c)
    · exact hd c d y hc hd'

/-- An allocation starts a new epoch or changes nothing (R74). -/
theorem distinctEntries_allocated {n : Code} (hn : n = 256#12 ∨ n = s.nextCode) (hd : DistinctEntries s) :
    DistinctEntries { s with nextCode := n } := by
  obtain rfl | rfl := hn
  · exact distinctEntries_of_newEpoch rfl
  · exact hd

theorem not_holds_allocated {n : Code} {x : Bytes} (hn : n = 256#12 ∨ n = s.nextCode)
    (habsent : ∀ c, ¬ Holds s c x) (c : Nat) : ¬ Holds { s with nextCode := n } c x := by
  obtain rfl | rfl := hn
  · exact not_holds_of_newEpoch rfl c x
  · exact habsent c

/-- A move that writes no entry keeps the entries distinct. -/
theorem distinctEntries_of_keepsEntries (hk : KeepsEntries s t) (hd : DistinctEntries s) : DistinctEntries t := by
  obtain ⟨hentry, hnext | hnext⟩ := hk
  · simpa only [DistinctEntries, Holds, hentry, hnext] using hd
  · exact distinctEntries_of_newEpoch hnext

/-- C_DATA inserts only a string that DICT_ELOOKUP has not found (R80). -/
theorem distinctEntries_encodeByte {b : Byte} (h : Inv s) (hd : DistinctEntries s)
    (e : encodeByte b s = .next t) : DistinctEntries t := by
  obtain ⟨-, rfl⟩ | ⟨-, -, rfl⟩ | ⟨hs, hnone, hemit⟩ := encodeByte_next e
  · exact hd
  · exact hd
  · obtain ⟨k, n, -, hn, hi, rfl⟩ := emitAndInsert_next hemit
    have hcode : n = 256#12 ∨ n = s.nextCode := hn ▸ dictAlloc_fst (bcWrite k s)
    have hlen : (s.sbuf ++ immString b).length ≠ 1 := by simp [immString, hs]
    have habsent := dictElookup_absent hlen (by simp [immString]) hnone
    exact distinctEntries_withInserted (s := { s with nextCode := n }) h.memWf hi
      (not_holds_allocated hcode habsent) (distinctEntries_allocated hcode hd)

/-! ### The moves that end outside the compress path -/

/-- A mode outside the compress path asks nothing. -/
theorem invDistinct_of_mode (hm : t.mode.compressing = false) : InvDistinct t :=
  fun hc => absurd hc (by simp [hm])

theorem invDistinct_closeCompress (e : closeCompress s = .next t) : InvDistinct t := by
  obtain ⟨-, rfl⟩ | ⟨-, rfl⟩ := closeCompress_next e
  all_goals exact invDistinct_of_mode rfl

theorem invDistinct_acceptFile (e : acceptFile s = .next t) : InvDistinct t := by
  obtain ⟨-, rfl⟩ | ⟨-, rfl⟩ := acceptFile_next e
  all_goals exact invDistinct_of_mode rfl

theorem invDistinct_closeDecompress (e : closeDecompress s = .next t) : InvDistinct t := by
  obtain ⟨-, rfl⟩ | ⟨-, rfl⟩ := closeDecompress_next e
  all_goals exact invDistinct_of_mode rfl

theorem invDistinct_illegalWord {w : Word} (hd : InvDistinct s) (e : illegalWord w s = .next t) :
    InvDistinct t := by
  obtain ⟨-, ⟨-, rfl⟩ | ⟨-, rfl⟩⟩ := illegalWord_next e
  · exact hd
  · exact invDistinct_of_mode rfl

theorem invDistinct_dnStep (hm : s.mode = .dhdr) : InvDistinct (dnStep s) := by
  have hcompress : s.mode.compressing = false := by rw [hm]; rfl
  cases hain : s.ain with
  | nil =>
    rw [dnStep_nil hain]
    exact invDistinct_of_mode rfl
  | cons b rest =>
    obtain ⟨-, e⟩ | ⟨-, -, -, e⟩ | ⟨-, -, -, e⟩ | ⟨-, -, -, e⟩ | ⟨-, -, -, e⟩ := dnStep_cons hain
    all_goals rw [e]
    · exact invDistinct_of_mode hcompress
    · exact invDistinct_of_mode rfl
    · exact invDistinct_of_mode hcompress
    · exact invDistinct_of_mode rfl
    · exact invDistinct_of_mode rfl

theorem invDistinct_exhaust (s : State) : InvDistinct (exhaust s) := by
  obtain ⟨-, e⟩ | ⟨-, e⟩ := exhaust_cases s
  all_goals
    rw [e]
    exact invDistinct_of_mode rfl

theorem invDistinct_resolveCode {r : Code} (e : resolveCode r s = .next t) : InvDistinct t := by
  obtain ⟨-, hm, ⟨-, hfirst⟩ | ⟨-, hnext⟩⟩ := resolveCode_next e
  all_goals have hcompress : s.mode.compressing = false := by rw [hm]; rfl
  · obtain ⟨-, rfl⟩ | ⟨x, -, rfl⟩ := resolveFirst_next hfirst
    · exact invDistinct_of_mode rfl
    · exact invDistinct_of_mode hcompress
  · obtain ⟨n, -, ⟨-, rfl⟩ | ⟨-, -, rfl⟩ | ⟨fc, y, -, -, -, -, -, rfl⟩⟩ := resolveNext_next hnext
    · exact invDistinct_of_mode rfl
    · exact invDistinct_of_mode rfl
    · exact invDistinct_of_mode hcompress

theorem invDistinct_exec_decodeCode {c : Code} (e : exec (decodeCode c) s = .next t) : InvDistinct t := by
  obtain hc | ⟨d, hc⟩ | hc := decodeCode_cases c
  all_goals rw [hc] at e
  · obtain ⟨-, -, -, rfl⟩ := execSent_next e
    exact invDistinct_of_mode rfl
  · exact invDistinct_resolveCode e
  · exact invDistinct_resolveCode e

/-! ### The commands and the step -/

/-- The rule of a command, in the mode that admits it. -/
theorem invDistinct_rule {i : Instr} {r : Rule} (hr : ruleOf i = some r) (hm : s.mode = modeOfOp r.op)
    (h : Inv s) (hd : InvDistinct s) (e : r.body s = .next t) : InvDistinct t := by
  have hd' : (modeOfOp r.op).compressing = true → DistinctEntries s := hm ▸ hd
  cases i with
  | cStart =>
    cases hr
    cases e
    exact fun _ => distinctEntries_of_newEpoch rfl
  | cNameb | cNameend | cHdrend | cFbegin | cFend =>
    have hk := rule_keepsEntries hr nofun e
    cases hr
    exact fun _ => distinctEntries_of_keepsEntries hk (hd' rfl)
  | cData b => cases hr; exact fun _ => distinctEntries_encodeByte h (hd' rfl) e
  | cFinish => cases hr; exact invDistinct_closeCompress e
  | dStart =>
    cases hr
    cases e
    exact invDistinct_of_mode rfl
  | dName =>
    cases hr
    cases e
    exact hd
  | dFile => cases hr; exact invDistinct_acceptFile e
  | dFinish => cases hr; exact invDistinct_closeDecompress e
  | abort | illegalOp0 | illegalOpE | illegalOpF | bcWrite | bcRead | bcWclr | bcRclr | dictReset | dictAlloc
  | dictElookup | dictEinsert | dictDlookup | dictDinsert | uopReserved | sent | lit | dyn => cases hr

theorem invDistinct_command {i : Instr} {r : Rule} (hr : ruleOf i = some r) (h : Inv s) (hd : InvDistinct s)
    (e : exec i s = .next t) : InvDistinct t := by
  rw [exec_of_ruleOf hr] at e
  obtain ⟨-, ⟨-, rfl⟩ | ⟨-, hl, hbody⟩ | ⟨-, -, rfl⟩⟩ := command_next e
  · exact hd
  · exact invDistinct_rule hr (mode_of_legal (ruleOf_op_ne_abort hr) hl) h hd hbody
  · exact invDistinct_of_mode rfl

theorem invDistinct_exec_decodeCmd {w : Word} {i : Instr} (hdec : decodeCmd w = .ok i) (h : Inv s)
    (hd : InvDistinct s) (e : exec i s = .next t) : InvDistinct t := by
  have henc := encode_of_decodeCmd hdec
  cases i with
  | cStart | cNameb | cNameend | cHdrend | cFbegin | cData | cFend | cFinish | dStart | dName | dFile
  | dFinish => exact invDistinct_command rfl h hd e
  | abort =>
    obtain ⟨-, rfl⟩ := execAbort_next e
    exact invDistinct_of_mode rfl
  | illegalOp0 | illegalOpE | illegalOpF => exact invDistinct_illegalWord hd e
  | bcWrite | bcRead | bcWclr | bcRclr | dictReset | dictAlloc | dictElookup | dictEinsert | dictDlookup
  | dictDinsert | uopReserved | sent | lit | dyn => cases henc

theorem invDistinct_move (h : Inv s) (hd : InvDistinct s) (hmove : Move s t) : InvDistinct t := by
  cases hmove with
  | uop w port run =>
    rw [h.noUop] at port
    cases port
  | name port busy mode eq => exact eq ▸ invDistinct_dnStep mode
  | emit port busy mode dstate eq => exact eq ▸ invDistinct_of_mode (by rw [dsEmit_mode, mode]; rfl)
  | code port busy mode dstate c u read run => exact invDistinct_exec_decodeCode run
  | exhausted port busy mode dstate u read eq => exact eq ▸ invDistinct_exhaust u
  | wait port busy cmdq eq => exact eq ▸ hd
  | command port busy w rest i cmdq decode run =>
    exact invDistinct_exec_decodeCmd (s := { s with cmdq := rest }) decode { h with } hd run
  | illegal port busy w rest r cmdq decode run =>
    exact invDistinct_illegalWord (s := { s with cmdq := rest }) hd run

/-- Settles O44, by the kind of the move. -/
theorem stepKeepsEntriesDistinct : Obligations.StepKeepsEntriesDistinct := by
  unfold Obligations.StepKeepsEntriesDistinct
  exact fun s t h hd e => invDistinct_move h hd (move_of_step e)

end Sys2Proof.Proofs.DistinctEntries

/-! The byte-stream ports (20_memory.md R38 to R40): which instruction writes which port, and that every step only
appends to AOUT and DOUT and only takes bytes from the front of AIN. -/

namespace Sys2Proof.Proofs.Ports

open Sys2Proof.Machine Sys2Proof.Proofs.Moves

variable {i : Instr} {s t u : State}

/-- The move from s to t appends to AOUT and DOUT and takes AIN from its front. -/
def PortsAdvance (s t : State) : Prop :=
  (∃ x, t.aout = s.aout ++ x) ∧ (∃ x, t.dout = s.dout ++ x) ∧ ∃ x, s.ain = x ++ t.ain

/-- What the instruction i does to the ports: a compress command or BC_WRITE appends to AOUT, SENT appends to
DOUT, BC_READ takes bytes from AIN, and nothing else happens. -/
inductive PortMove (i : Instr) (s t : State) : Prop where
  | same (aout : t.aout = s.aout) (dout : t.dout = s.dout) (ain : t.ain = s.ain)
  | aout (writer : compressInstr i = true ∨ ∃ c, i = .bcWrite c) (out : Bytes) (aout : t.aout = s.aout ++ out)
      (dout : t.dout = s.dout) (ain : t.ain = s.ain)
  | dout (writer : i = .sent) (events : List DEvent) (aout : t.aout = s.aout) (dout : t.dout = s.dout ++ events)
      (ain : t.ain = s.ain)
  | ain (reader : i = .bcRead) (taken : Bytes) (aout : t.aout = s.aout) (dout : t.dout = s.dout)
      (ain : s.ain = taken ++ t.ain)

/-! ### The instructions -/

theorem encodeByte_portMove {b : Byte} (h : encodeByte b s = .next t) : PortMove (.cData b) s t := by
  obtain ⟨-, rfl⟩ | ⟨-, -, rfl⟩ | ⟨-, -, hemit⟩ := encodeByte_next h
  · exact .same rfl rfl rfl
  · exact .same rfl rfl rfl
  · obtain ⟨k, n, -, -, -, rfl⟩ := emitAndInsert_next hemit
    exact .aout (.inl rfl) _ rfl rfl rfl

/-- The rule of a command. -/
theorem rule_portMove {r : Rule} (hr : ruleOf i = some r) (h : r.body s = .next t) : PortMove i s t := by
  cases i with
  | cStart | dStart | dName =>
    cases hr
    cases h
    exact .same rfl rfl rfl
  | cNameb b =>
    cases hr
    obtain ⟨-, rfl⟩ | ⟨-, rfl⟩ := nameByte_next h
    · exact .same rfl rfl rfl
    · exact .aout (.inl rfl) _ rfl rfl rfl
  | cNameend =>
    cases hr
    obtain ⟨-, rfl⟩ | ⟨-, -, rfl⟩ | ⟨-, -, rfl⟩ := nameEnd_next h
    · exact .same rfl rfl rfl
    · exact .same rfl rfl rfl
    · exact .aout (.inl rfl) _ rfl rfl rfl
  | cHdrend =>
    cases hr
    obtain ⟨-, rfl⟩ | ⟨-, -, rfl⟩ | ⟨-, -, rfl⟩ := headerEnd_next h
    · exact .same rfl rfl rfl
    · exact .same rfl rfl rfl
    · exact .aout (.inl rfl) _ rfl rfl rfl
  | cFbegin =>
    cases hr
    obtain ⟨-, rfl⟩ | ⟨-, rfl⟩ := beginSegment_next h
    all_goals exact .same rfl rfl rfl
  | cData b =>
    cases hr
    exact encodeByte_portMove h
  | cFend =>
    cases hr
    obtain ⟨-, rfl⟩ | ⟨-, k, -, rfl⟩ := endSegment_next h
    · exact .aout (.inl rfl) _ rfl rfl rfl
    · exact .aout (.inl rfl) _ (List.append_assoc _ _ _) rfl rfl
  | cFinish =>
    cases hr
    obtain ⟨-, rfl⟩ | ⟨-, rfl⟩ := closeCompress_next h
    all_goals exact .same rfl rfl rfl
  | dFile =>
    cases hr
    obtain ⟨-, rfl⟩ | ⟨-, rfl⟩ := acceptFile_next h
    all_goals exact .same rfl rfl rfl
  | dFinish =>
    cases hr
    obtain ⟨-, rfl⟩ | ⟨-, rfl⟩ := closeDecompress_next h
    all_goals exact .same rfl rfl rfl
  | abort | illegalOp0 | illegalOpE | illegalOpF | bcWrite | bcRead | bcWclr | bcRclr | dictReset | dictAlloc
  | dictElookup | dictEinsert | dictDlookup | dictDinsert | uopReserved | sent | lit | dyn => cases hr

theorem command_portMove {r : Rule} (hr : ruleOf i = some r) (h : exec i s = .next t) : PortMove i s t := by
  rw [exec_of_ruleOf hr] at h
  obtain ⟨-, ⟨-, rfl⟩ | ⟨-, -, hbody⟩ | ⟨-, -, rfl⟩⟩ := command_next h
  · exact .same rfl rfl rfl
  · exact rule_portMove hr hbody
  · exact .same rfl rfl rfl

theorem illegalWord_ports {w : Word} (h : illegalWord w s = .next t) :
    t.aout = s.aout ∧ t.dout = s.dout ∧ t.ain = s.ain := by
  obtain ⟨-, ⟨-, rfl⟩ | ⟨-, rfl⟩⟩ := illegalWord_next h
  all_goals exact ⟨rfl, rfl, rfl⟩

/-- The loop of BC_READ leaves an end of its input. -/
theorem pullBytes_suffix (bs : Bytes) : ∀ acc n, (pullBytes acc n bs).2.2 <:+ bs := by
  induction bs with
  | nil => exact fun _ _ => List.suffix_rfl
  | cons b bs ih =>
    intro acc n
    by_cases hfull : 12 ≤ n
    · rw [pullBytes_full hfull]
    · rw [pullBytes_step (Nat.lt_of_not_le hfull)]
      exact (ih _ _).trans (List.suffix_cons b bs)

theorem bcRead_ain (s : State) : ∃ taken, s.ain = taken ++ (bcRead s).2.ain := by
  have hrest : (bcRead s).2.ain = (pullBytes s.rbits.toNat s.rcnt.toNat s.ain).2.2 := by
    rw [bcRead]
    dsimp only
    split
    · rfl
    · rfl
  obtain ⟨taken, htaken⟩ := pullBytes_suffix s.ain s.rbits.toNat s.rcnt.toNat
  exact ⟨taken, by rw [hrest, htaken]⟩

theorem bcRead_aout_dout (s : State) : (bcRead s).2.aout = s.aout ∧ (bcRead s).2.dout = s.dout := by
  obtain ⟨bs, rb, rc, hread⟩ := bcRead_frame s
  rw [hread]
  exact ⟨rfl, rfl⟩

theorem microOperation_portMove (hi : microOperation i = true) (h : exec i s = .next t) : PortMove i s t := by
  cases i with
  | bcWrite c =>
    cases h
    exact .aout (.inr ⟨c, rfl⟩) _ rfl rfl rfl
  | bcRead =>
    obtain ⟨taken, htaken⟩ := bcRead_ain s
    obtain ⟨haout, hdout⟩ := bcRead_aout_dout s
    cases h
    exact .ain rfl taken haout hdout htaken
  | bcWclr | bcRclr | dictReset | dictElookup | dictDlookup =>
    cases h
    exact .same rfl rfl rfl
  | dictAlloc =>
    cases h
    rw [dictAlloc_frame]
    exact .same rfl rfl rfl
  | dictEinsert c | dictDinsert c =>
    obtain ⟨-, rfl⟩ := inserted_insertEntry_next h
    exact .same rfl rfl rfl
  | uopReserved => cases h
  | cStart | cNameb | cNameend | cHdrend | cFbegin | cData | cFend | cFinish | dStart | dName | dFile | dFinish
  | abort | illegalOp0 | illegalOpE | illegalOpF | sent | lit | dyn => cases hi

theorem resolveCode_portMove {r : Code} (h : resolveCode r s = .next t) : PortMove i s t := by
  obtain ⟨-, -, ⟨-, hfirst⟩ | ⟨-, hnext⟩⟩ := resolveCode_next h
  · obtain ⟨-, rfl⟩ | ⟨x, -, rfl⟩ := resolveFirst_next hfirst
    all_goals exact .same rfl rfl rfl
  · obtain ⟨n, -, ⟨-, rfl⟩ | ⟨-, -, rfl⟩ | ⟨fc, y, -, -, -, -, -, rfl⟩⟩ := resolveNext_next hnext
    all_goals exact .same rfl rfl rfl

theorem exec_portMove (h : exec i s = .next t) : PortMove i s t := by
  cases i with
  | cStart | cNameb | cNameend | cHdrend | cFbegin | cData | cFend | cFinish | dStart | dName | dFile
  | dFinish => exact command_portMove rfl h
  | abort =>
    obtain ⟨-, rfl⟩ := execAbort_next h
    exact .same rfl rfl rfl
  | illegalOp0 | illegalOpE | illegalOpF =>
    obtain ⟨haout, hdout, hain⟩ := illegalWord_ports h
    exact .same haout hdout hain
  | bcWrite | bcRead | bcWclr | bcRclr | dictReset | dictAlloc | dictElookup | dictEinsert | dictDlookup
  | dictDinsert | uopReserved => exact microOperation_portMove rfl h
  | sent =>
    obtain ⟨-, -, -, rfl⟩ := execSent_next h
    exact .dout rfl _ rfl rfl rfl
  | lit | dyn => exact resolveCode_portMove h

/-- Settles O47, by what the instruction does to the ports. -/
theorem portWriters : Obligations.PortWriters := by
  unfold Obligations.PortWriters
  intro i s t h
  cases exec_portMove h with
  | same aout dout ain => exact ⟨fun hne => absurd aout hne, fun hne => absurd dout hne, fun hne => absurd ain hne⟩
  | aout writer out aout dout ain =>
    exact ⟨fun _ => writer, fun hne => absurd dout hne, fun hne => absurd ain hne⟩
  | dout writer events aout dout ain =>
    exact ⟨fun hne => absurd aout hne, fun _ => writer, fun hne => absurd ain hne⟩
  | ain reader taken aout dout ain =>
    exact ⟨fun hne => absurd aout hne, fun hne => absurd dout hne, fun _ => reader⟩

/-! ### The moves -/

theorem portsAdvance_of_same (haout : t.aout = s.aout) (hdout : t.dout = s.dout) (hain : t.ain = s.ain) :
    PortsAdvance s t :=
  ⟨⟨[], by simp [haout]⟩, ⟨[], by simp [hdout]⟩, [], by simp [hain]⟩

theorem portsAdvance_of_dout {events : List DEvent} {taken : Bytes} (haout : t.aout = s.aout)
    (hdout : t.dout = s.dout ++ events) (hain : s.ain = taken ++ t.ain) : PortsAdvance s t :=
  ⟨⟨[], by simp [haout]⟩, ⟨events, hdout⟩, taken, hain⟩

theorem PortMove.advance (h : PortMove i s t) : PortsAdvance s t := by
  cases h with
  | same aout dout ain => exact portsAdvance_of_same aout dout ain
  | aout writer out aout dout ain => exact ⟨⟨out, aout⟩, ⟨[], by simp [dout]⟩, [], by simp [ain]⟩
  | dout writer events aout dout ain => exact portsAdvance_of_dout (taken := []) aout dout (by simp [ain])
  | ain reader taken aout dout ain => exact portsAdvance_of_dout (events := []) aout (by simp [dout]) ain

theorem PortsAdvance.trans (h : PortsAdvance s t) (h' : PortsAdvance t u) : PortsAdvance s u := by
  obtain ⟨⟨out, haout⟩, ⟨events, hdout⟩, taken, hain⟩ := h
  obtain ⟨⟨out', haout'⟩, ⟨events', hdout'⟩, taken', hain'⟩ := h'
  exact ⟨⟨out ++ out', by simp [haout, haout']⟩, ⟨events ++ events', by simp [hdout, hdout']⟩,
    taken ++ taken', by simp [hain, hain']⟩

theorem portsAdvance_bcRead {o : Option Code} (hread : bcRead s = (o, u)) : PortsAdvance s u := by
  obtain ⟨taken, htaken⟩ := bcRead_ain s
  obtain ⟨haout, hdout⟩ := bcRead_aout_dout s
  rw [hread] at htaken haout hdout
  exact portsAdvance_of_dout (events := []) haout (by simpa using hdout) htaken

/-- DN_STEP takes one byte, if there is one, and puts one event (R105). -/
theorem portsAdvance_dnStep (s : State) : PortsAdvance s (dnStep s) := by
  cases hain : s.ain with
  | nil =>
    rw [dnStep_nil hain]
    exact portsAdvance_of_same rfl rfl rfl
  | cons b rest =>
    obtain ⟨-, e⟩ | ⟨-, -, -, e⟩ | ⟨-, -, -, e⟩ | ⟨-, -, -, e⟩ | ⟨-, -, -, e⟩ := dnStep_cons hain
    all_goals rw [e]
    · exact portsAdvance_of_dout (taken := [b]) rfl rfl hain
    · exact portsAdvance_of_dout (events := []) (taken := [b]) rfl (List.append_nil _).symm hain
    · exact portsAdvance_of_dout (taken := [b]) rfl rfl hain
    · exact portsAdvance_of_dout (events := []) (taken := [b]) rfl (List.append_nil _).symm hain
    · exact portsAdvance_of_dout (taken := [b]) rfl rfl hain

theorem portsAdvance_exhaust (s : State) : PortsAdvance s (exhaust s) := by
  obtain ⟨-, e⟩ | ⟨-, e⟩ := exhaust_cases s
  all_goals rw [e]
  · exact portsAdvance_of_dout (taken := []) rfl rfl rfl
  · exact portsAdvance_of_same rfl rfl rfl

theorem portsAdvance_move (h : Move s t) : PortsAdvance s t := by
  cases h with
  | uop w port run => exact (exec_portMove (s := { s with uopPort := none }) run).advance
  | name port busy mode eq => exact eq ▸ portsAdvance_dnStep s
  | emit port busy mode dstate eq => exact eq ▸ portsAdvance_of_dout (taken := []) rfl rfl rfl
  | code port busy mode dstate c u read run => exact (portsAdvance_bcRead read).trans (exec_portMove run).advance
  | exhausted port busy mode dstate u read eq =>
    exact eq ▸ (portsAdvance_bcRead read).trans (portsAdvance_exhaust u)
  | wait port busy cmdq eq => exact eq ▸ portsAdvance_of_same rfl rfl rfl
  | command port busy w rest i cmdq decode run => exact (exec_portMove (s := { s with cmdq := rest }) run).advance
  | illegal port busy w rest r cmdq decode run =>
    obtain ⟨haout, hdout, hain⟩ := illegalWord_ports run
    exact portsAdvance_of_same haout hdout hain

/-- Settles O46, by the kind of the move. -/
theorem portsAreAppendOnlyAndConsumeOnly : Obligations.PortsAreAppendOnlyAndConsumeOnly := by
  unfold Obligations.PortsAreAppendOnlyAndConsumeOnly
  exact fun s t h => portsAdvance_move (move_of_step h)

end Sys2Proof.Proofs.Ports

/-! The host's moves, and a command word's instruction while BUSY = 1 (20_memory.md R48). -/

namespace Sys2Proof.Proofs.HostMoves

open Sys2Proof.Machine Sys2Proof.Proofs.Moves

variable {s t : State}

theorem command_busy {op : Nat} {imm : Byte} {body : State → Result} (hb : s.busy = true) :
    command op imm body s = .refused .commandWhileBusy := if_pos hb

theorem illegalWord_busy {w : Word} (hb : s.busy = true) :
    illegalWord w s = .refused .commandWhileBusy := if_pos hb

theorem execAbort_busy (hb : s.busy = true) : execAbort s = .refused .commandWhileBusy := if_pos hb

/-- Settles O13: a word of the command port is a dispatched command, ABORT or an illegal word, and each of them
looks at BUSY first. -/
theorem noCommandWhileBusy : Obligations.NoCommandWhileBusy := by
  unfold Obligations.NoCommandWhileBusy
  intro s w i hb hdec
  have henc := encode_of_decodeCmd hdec
  cases i with
  | cStart | cNameb | cNameend | cHdrend | cFbegin | cData | cFend | cFinish | dStart | dName | dFile
  | dFinish => exact command_busy hb
  | abort => exact execAbort_busy hb
  | illegalOp0 | illegalOpE | illegalOpF => exact illegalWord_busy hb
  | bcWrite | bcRead | bcWclr | bcRclr | dictReset | dictAlloc | dictElookup | dictEinsert | dictDlookup
  | dictDinsert | uopReserved | sent | lit | dyn => cases henc

theorem hostIssue_ready (w : Word) (hb : s.busy = false) :
    hostIssue w s = some { s with cmdq := s.cmdq ++ [w] } := if_neg (Bool.eq_false_iff.mp hb)

theorem hostIssue_busy (w : Word) (hb : s.busy = true) : hostIssue w s = none := if_pos hb

theorem hostRegRead_busy (a : BitVec 4) (hb : s.busy = true) : hostRegRead a s = none := if_pos hb

/-- The invariant reads neither the command port nor AIN. -/
theorem inv_hostIssue {w : Word} (h : Inv s) (e : hostIssue w s = some t) : Inv t := by
  cases hb : s.busy with
  | true =>
    rw [hostIssue_busy w hb] at e
    cases e
  | false =>
    rw [hostIssue_ready w hb] at e
    cases e
    exact { h with }

theorem inv_hostSupply (bs : Bytes) (h : Inv s) : Inv (hostSupply bs s) := { h with }

/-- Settles O45, move by move. -/
theorem hostMovesKeepTheInvariant : Obligations.HostMovesKeepTheInvariant := by
  unfold Obligations.HostMovesKeepTheInvariant
  exact ⟨fun _ w hb => hostIssue_ready w hb, fun _ w hb => hostIssue_busy w hb, fun _ _ => rfl,
    fun _ _ _ h e => inv_hostIssue h e, fun _ bs h => inv_hostSupply bs h, fun _ a hb => hostRegRead_busy a hb⟩

end Sys2Proof.Proofs.HostMoves

/-! The three encodings (30_encoding.md R50, R56 to R61): the fields of a word, decode after encode, the rows of
the opcode map, and what a step does with a decoded instruction. -/

namespace Sys2Proof.Proofs.Encoding

open Sys2Proof.Machine Sys2Proof.Claims Sys2Proof.Proofs.Moves

/-! ### The fields of a word -/

theorem field_op_cmdWord {op : Nat} (h : op < 16) (b : Byte) : field (cmdWord op b).toNat 31 28 = op := by
  have := b.isLt
  rw [Laws.TableRow.cmdWord_toNat h, field]
  omega

theorem field_rsv_cmdWord {op : Nat} (h : op < 16) (b : Byte) : field (cmdWord op b).toNat 27 8 = 0 := by
  have := b.isLt
  rw [Laws.TableRow.cmdWord_toNat h, field]
  omega

theorem field_imm_cmdWord {op : Nat} (h : op < 16) (b : Byte) :
    field (cmdWord op b).toNat 7 0 = b.toNat := by
  have := b.isLt
  rw [Laws.TableRow.cmdWord_toNat h, field]
  omega

theorem field_op_rawWord {op : Nat} (h : op < 16) (r : BitVec 28) :
    field (rawWord op r).toNat 31 28 = op := by
  have := r.isLt
  rw [Laws.TableRow.rawWord_toNat h, field]
  omega

theorem restOf_rawWord {op : Nat} (h : op < 16) (r : BitVec 28) : restOf (rawWord op r) = r := by
  have := r.isLt
  apply BitVec.eq_of_toNat_eq
  rw [restOf, Laws.TableRow.rawWord_toNat h, field, BitVec.toNat_ofNat]
  omega

theorem field_sel_uopWord {sel : Nat} (h : sel < 16) (c : Code) :
    field (uopWord sel c).toNat 15 12 = sel := by
  have := c.isLt
  rw [Laws.TableRow.uopWord_toNat h, field]
  omega

theorem field_code_uopWord {sel : Nat} (h : sel < 16) (c : Code) :
    field (uopWord sel c).toNat 11 0 = c.toNat := by
  have := c.isLt
  rw [Laws.TableRow.uopWord_toNat h, field]
  omega

theorem append_eq_uopWord (sel : BitVec 4) (c : Code) : sel ++ c = uopWord sel.toNat c :=
  BitVec.eq_of_toNat_eq (by rw [ReadWindow.append_toNat, Laws.TableRow.uopWord_toNat sel.isLt])

/-! ### Decode after encode -/

theorem byteCommand_cmdWord {op : Nat} (h : op < 16) (b : Byte) (f : Byte → Instr) :
    byteCommand (cmdWord op b) f = .ok (f b) := by
  simp [byteCommand, field_rsv_cmdWord h, field_imm_cmdWord h]

/-- The selector words of a micro-operation with a code (R61). -/
theorem decodeUop_uopWord (c : Code) :
    decodeUop (uopWord 0x0 c) = .bcWrite c ∧ decodeUop (uopWord 0x7 c) = .dictEinsert c ∧
      decodeUop (uopWord 0x8 c) = .dictDlookup c ∧ decodeUop (uopWord 0x9 c) = .dictDinsert c := by
  simp [decodeUop, field_sel_uopWord, field_code_uopWord]

/-- The reserved selectors (R61). -/
theorem decodeUop_uopWord_reserved {sel : BitVec 4} (h : 0xA ≤ sel.toNat) (c : Code) :
    decodeUop (uopWord sel.toNat c) = .uopReserved sel c := by
  simp only [decodeUop, field_sel_uopWord sel.isLt, field_code_uopWord sel.isLt]
  split
  case h_11 => simp
  all_goals omega

theorem decodeCode_sent {c : Code} (h : c.toNat = 0xFFF) : decodeCode c = .sent := if_pos h

theorem decodeCode_lit {c : Code} (h : c.toNat < 0x100) : decodeCode c = .lit (c.extractLsb' 0 8) := by
  rw [decodeCode, if_neg (by simp; omega), if_pos h]
  rfl

theorem decodeCode_dyn {c : Code} (hlow : 0x100 ≤ c.toNat) (hhigh : c.toNat ≤ 0xFFE) :
    decodeCode c = .dyn c := by
  rw [decodeCode, if_neg (by simp; omega), if_neg (by simp; omega)]

theorem decode_encode {i : Instr} (h : i.wf = true) : decode (encode i) = .ok i := by
  cases i with
  | cStart | cNameend | cHdrend | cFbegin | cFend | cFinish | dStart | dName | dFile | dFinish | abort
  | bcRead | bcWclr | bcRclr | dictReset | dictAlloc | dictElookup | sent => rfl
  | cNameb b | cData b =>
    simp only [encode, decode, decodeCmd, field_op_cmdWord, byteCommand_cmdWord, Nat.reduceLT]
  | illegalOp0 r | illegalOpE r | illegalOpF r =>
    simp only [encode, decode, decodeCmd, field_op_rawWord, restOf_rawWord, Nat.reduceLT]
  | bcWrite c | dictEinsert c | dictDlookup c | dictDinsert c => simp [encode, decode, decodeUop_uopWord]
  | uopReserved sel c =>
    rw [encode, decode, decodeUop_uopWord_reserved (by simpa [Instr.wf] using h)]
  | lit d =>
    have hd : (BitVec.ofNat 12 d.toNat).toNat = d.toNat := code_toNat_ofNat_lt (by omega)
    have hbyte : (BitVec.ofNat 12 d.toNat).extractLsb' 0 8 = d := BitVec.eq_of_toNat_eq (by simpa using d.isLt)
    rw [encode, decode, decodeCode_lit (by omega), hbyte]
  | dyn c =>
    simp only [Instr.wf, Bool.and_eq_true, decide_eq_true_eq] at h
    obtain ⟨hlow, hhigh⟩ := h
    rw [encode, decode, decodeCode_dyn hlow hhigh]

/-- Settles O4, format by format. -/
theorem decodeOfEncodeIsIdentity : Obligations.DecodeOfEncodeIsIdentity := by
  unfold Obligations.DecodeOfEncodeIsIdentity
  exact fun _ h => decode_encode h

/-- Settles O3: each word is evaluated. -/
theorem knownWordsDecode : Obligations.KnownWordsDecode := by
  unfold Obligations.KnownWordsDecode
  decide

/-! ### The rows of the opcode map -/

/-- A command word is its OP, RSV and IMM8 (R56). -/
theorem word_ext {v w : Word} (hop : v.extractLsb' 28 4 = w.extractLsb' 28 4)
    (hrsv : v.extractLsb' 8 20 = w.extractLsb' 8 20) (himm : v.extractLsb' 0 8 = w.extractLsb' 0 8) :
    v = w := by
  have := v.isLt
  have := w.isLt
  simp only [BitVec.toNat_eq, BitVec.extractLsb'_toNat, Nat.shiftRight_eq_div_pow] at *
  omega

theorem eq_cmdWord_of_rsv {w : Word} (h : w.extractLsb' 8 20 = 0#20) :
    w = cmdWord (w.extractLsb' 28 4).toNat (w.extractLsb' 0 8) := by
  have := w.isLt
  apply BitVec.eq_of_toNat_eq
  rw [Laws.TableRow.cmdWord_toNat (BitVec.isLt _)]
  simp only [BitVec.toNat_eq, BitVec.extractLsb'_toNat, Nat.shiftRight_eq_div_pow, BitVec.toNat_ofNat] at h ⊢
  omega

theorem not_illegalWord_iff (w : Word) :
    ¬ IllegalWord w ↔
      (w.extractLsb' 28 4 ≠ 0x0#4 ∧ w.extractLsb' 28 4 ≠ 0xE#4 ∧ w.extractLsb' 28 4 ≠ 0xF#4) ∧
      w.extractLsb' 8 20 = 0#20 ∧
      (w.extractLsb' 0 8 = 0#8 ∨ w.extractLsb' 28 4 = 0x2#4 ∨ w.extractLsb' 28 4 = 0x6#4) := by
  unfold IllegalWord
  tauto

/-- The fields of a row's match and mask: OP is one of a legal command, RSV is 0, and IMM8 is looked at except
where the command takes a byte (R58). -/
theorem commandRows_fields : ∀ r ∈ commandRows,
    (r.1.extractLsb' 28 4 ≠ 0x0#4 ∧ r.1.extractLsb' 28 4 ≠ 0xE#4 ∧ r.1.extractLsb' 28 4 ≠ 0xF#4) ∧
      r.1.extractLsb' 8 20 = 0#20 ∧ r.1.extractLsb' 0 8 = 0#8 ∧
      r.2.1.extractLsb' 28 4 = 0xF#4 ∧ r.2.1.extractLsb' 8 20 = 0xFFFFF#20 ∧
      r.2.1.extractLsb' 0 8 =
        if r.1.extractLsb' 28 4 = 0x2#4 ∨ r.1.extractLsb' 28 4 = 0x6#4 then 0x00#8 else 0xFF#8 := by
  decide

theorem exists_row_of_op : ∀ op : BitVec 4, op ≠ 0x0#4 → op ≠ 0xE#4 → op ≠ 0xF#4 →
    ∃ r ∈ commandRows, r.1.extractLsb' 28 4 = op := by
  decide

/-- What a row's mask leaves of a word: OP, RSV, and IMM8 unless the command takes a byte. -/
theorem mask_row_fields {r : Word × Word × (Byte → Instr)} (hr : r ∈ commandRows) (w : Word) :
    (w &&& r.2.1).extractLsb' 28 4 = w.extractLsb' 28 4 ∧ (w &&& r.2.1).extractLsb' 8 20 = w.extractLsb' 8 20 ∧
      (w &&& r.2.1).extractLsb' 0 8 =
        if r.1.extractLsb' 28 4 = 0x2#4 ∨ r.1.extractLsb' 28 4 = 0x6#4 then 0#8 else w.extractLsb' 0 8 := by
  obtain ⟨-, -, -, hop, hrsv, himm⟩ := commandRows_fields r hr
  simp only [BitVec.extractLsb'_and, hop, hrsv, himm]
  refine ⟨BitVec.and_allOnes, BitVec.and_allOnes, ?_⟩
  split
  · exact BitVec.and_zero
  · exact BitVec.and_allOnes

/-- What it says of the fields of a word that it matches a row. -/
theorem match_row_iff {r : Word × Word × (Byte → Instr)} (hr : r ∈ commandRows) (w : Word) :
    w &&& r.2.1 = r.1 ↔ w.extractLsb' 28 4 = r.1.extractLsb' 28 4 ∧ w.extractLsb' 8 20 = 0#20 ∧
      (w.extractLsb' 0 8 = 0#8 ∨ w.extractLsb' 28 4 = 0x2#4 ∨ w.extractLsb' 28 4 = 0x6#4) := by
  obtain ⟨-, hrsv, himm, -⟩ := commandRows_fields r hr
  obtain ⟨hop', hrsv', himm'⟩ := mask_row_fields hr w
  constructor
  · intro h
    rw [h] at hop' hrsv' himm'
    rw [himm] at himm'
    refine ⟨hop'.symm, hrsv'.symm.trans hrsv, ?_⟩
    rw [← hop']
    split at himm'
    · rename_i hbyte
      exact .inr hbyte
    · exact .inl himm'.symm
  · rintro ⟨hop, hw, hbyte⟩
    refine word_ext (hop'.trans hop) (hrsv'.trans (hw.trans hrsv.symm)) (himm'.trans ?_)
    rw [himm, ← hop]
    split
    · rfl
    · rename_i hplain
      exact hbyte.resolve_right hplain

/-- The instruction of a row is well-formed, and its word has the row's OP and, where the command takes one, its
byte. -/
theorem encode_row {r : Word × Word × (Byte → Instr)} (hr : r ∈ commandRows) (b : Byte) :
    (r.2.2 b).wf = true ∧ encode (r.2.2 b) = .cmd (cmdWord (r.1.extractLsb' 28 4).toNat
      (if r.1.extractLsb' 28 4 = 0x2#4 ∨ r.1.extractLsb' 28 4 = 0x6#4 then b else 0#8)) := by
  fin_cases hr <;> exact ⟨rfl, rfl⟩

/-- The decoder answers the mnemonic of the row a word matches, with IMM8 (R58): the word is the one the encoder
gives that mnemonic. -/
theorem decodeCmd_of_match {r : Word × Word × (Byte → Instr)} (hr : r ∈ commandRows) {w : Word}
    (h : w &&& r.2.1 = r.1) : decodeCmd w = .ok (r.2.2 (w.extractLsb' 0 8)) := by
  obtain ⟨hop, hrsv, himm⟩ := (match_row_iff hr w).mp h
  obtain ⟨hwf, henc⟩ := encode_row hr (w.extractLsb' 0 8)
  rw [← hop, ite_eq_left_iff.mpr fun hplain => (himm.resolve_right hplain).symm, ← eq_cmdWord_of_rsv hrsv] at henc
  have hdec := decode_encode hwf
  rwa [henc] at hdec

/-- Settles O5: a word that matches a row has the row's OP, so that no other row has its match word. -/
theorem everyWordSelectsOneMnemonicOrIsIllegal : Obligations.EveryWordSelectsOneMnemonicOrIsIllegal := by
  unfold Obligations.EveryWordSelectsOneMnemonicOrIsIllegal
  intro w
  constructor
  · intro hill r hr hmatch
    obtain ⟨hop, hfields⟩ := (match_row_iff hr w).mp hmatch
    obtain ⟨hlegal, -⟩ := commandRows_fields r hr
    rw [← hop] at hlegal
    exact (not_illegalWord_iff w).mpr ⟨hlegal, hfields⟩ hill
  · intro hlegal
    obtain ⟨⟨h0, hE, hF⟩, hfields⟩ := (not_illegalWord_iff w).mp hlegal
    obtain ⟨r, hr, hop⟩ := exists_row_of_op _ h0 hE hF
    have hmatch := (match_row_iff hr w).mpr ⟨hop.symm, hfields⟩
    refine ⟨r, hr, hmatch, decodeCmd_of_match hr hmatch, fun q hq hqmatch => ?_⟩
    obtain ⟨hqop, -⟩ := (match_row_iff hq w).mp hqmatch
    obtain ⟨-, hrsv, himm, -⟩ := commandRows_fields r hr
    obtain ⟨-, hqrsv, hqimm, -⟩ := commandRows_fields q hq
    exact word_ext (hqop.symm.trans hop.symm) (hqrsv.trans hrsv.symm) (hqimm.trans himm.symm)

/-! ### The code classes -/

/-- Settles O6, class by class. -/
theorem codeClassesAreTheWholeCodeSpace : Obligations.CodeClassesAreTheWholeCodeSpace := by
  unfold Obligations.CodeClassesAreTheWholeCodeSpace
  intro c
  refine ⟨?_, fun hsent => by rw [hsent]; rfl, decodeCode_lit, decodeCode_dyn⟩
  by_cases hlit : c.toNat < 0x100
  · rw [decodeCode_lit hlit]
    rfl
  · by_cases hdyn : c.toNat ≤ 0xFFE
    · rw [decodeCode_dyn (Nat.le_of_not_lt hlit) hdyn]
      simp [Instr.wf, Nat.le_of_not_lt hlit, hdyn]
    · rw [decodeCode_sent (by omega)]
      rfl

/-! ### The step -/

/-- Settles O2, by the place the instruction is fetched from. -/
theorem stepRunsDecodedInstruction : Obligations.StepRunsDecodedInstruction := by
  unfold Obligations.StepRunsDecodedInstruction
  refine ⟨fun s w hp => step_of_run (by simp only [fetch, hp]), ?_, ?_, ?_⟩
  · rintro s t c d hp ⟨hb, hm, rfl⟩ hd hread
    refine step_of_run ?_
    cases hd' : s.dstate with
    | emit => exact absurd hd' hd
    | first | next => simp [fetch, hp, hb, fetchMicro, hm, hd', fetchCode, hread]
  · intro s w rest i hp hb hq hdec
    exact step_of_run (by simp [fetch, hp, hb, fetchCommand, hq, hdec])
  · intro s hp hb hq
    exact step_of_done (by simp [fetch, hp, hb, fetchCommand, hq])

/-! ### The model's stops -/

theorem insertEntry_eq_none {s : State} {c : Code} {x : Bytes}
    (h : ¬ (c = s.nextCode ∧ 256 ≤ c.toNat ∧ c.toNat ≤ 4094 ∧ 2 ≤ x.length ∧ x.length ≤ 3841)) :
    insertEntry c x s = none :=
  if_neg (mt (insertable_iff c x s).mp h)

theorem readingCode_eq_false {s : State} (h : ¬ (Decoding .first s ∨ Decoding .next s)) :
    readingCode s = false := by
  refine Bool.eq_false_iff.mpr fun hread => h ?_
  obtain ⟨hb, hm, hd⟩ := (readingCode_iff s).mp hread
  cases hd' : s.dstate with
  | first => exact .inl ⟨hb, hm, hd'⟩
  | next => exact .inr ⟨hb, hm, hd'⟩
  | emit => exact absurd hd' hd

theorem resolveCode_notReading {s : State} (h : readingCode s = false) (r : Code) :
    resolveCode r s = .fault .noCodeExpected :=
  if_neg (Bool.eq_false_iff.mp h)

theorem execSent_notReading {s : State} (h : readingCode s = false) : execSent s = .fault .noCodeExpected :=
  if_neg (Bool.eq_false_iff.mp h)

/-- Settles O39: the word `sel ++ c` is the selector word of `sel` and `c`, and each stop is where its guard
fails. -/
theorem modelStopsByName : Obligations.ModelStopsByName := by
  unfold Obligations.ModelStopsByName
  refine ⟨fun sel c hsel => ?_, fun _ _ _ => rfl, fun s c hpre => ?_, fun s d c hdec => ?_⟩
  · rw [append_eq_uopWord, decodeUop_uopWord_reserved hsel]
  · have hnone := insertEntry_eq_none hpre
    exact ⟨congrArg inserted hnone, congrArg inserted hnone⟩
  · have hread := readingCode_eq_false hdec
    exact ⟨execSent_notReading hread, resolveCode_notReading hread _, resolveCode_notReading hread _⟩

end Sys2Proof.Proofs.Encoding

/-! The packing of codes into body bytes (30_encoding.md R52, R53): the bits of a code as the bits of its fields, the
body of a code sequence pair by pair, and BC_WRITE as the packer (40_bitcodec.md R64, R65). -/

namespace Sys2Proof.Proofs.Packing

open Sys2Proof.Machine Sys2Proof.Claims

/-! ### Bits of a word and of its fields -/

/-- The bits of a number are its high bits, then its low ones. -/
theorem msbBits_add (m n v : Nat) : msbBits (m + n) v = msbBits m (v / 2 ^ n) ++ msbBits n v := by
  unfold msbBits
  rw [List.range_add, List.map_append, List.map_map]
  congr 1
  · refine List.map_congr_left fun i hi => ?_
    rw [Nat.testBit_div_two_pow]
    congr 1
    have := List.mem_range.mp hi
    omega
  · refine List.map_congr_left fun i _ => ?_
    dsimp only [Function.comp_apply]
    congr 1
    omega

theorem msbBits_mod (n v : Nat) : msbBits n (v % 2 ^ n) = msbBits n v := by
  refine List.map_congr_left fun i hi => ?_
  have := List.mem_range.mp hi
  rw [Nat.testBit_mod_two_pow, decide_eq_true (by omega), Bool.true_and]

/-- Two fields side by side have the bits of the one and then the bits of the other. -/
theorem msbBits_append {m n : Nat} (x : BitVec m) (y : BitVec n) :
    msbBits (m + n) (x ++ y).toNat = msbBits m x.toNat ++ msbBits n y.toNat := by
  rw [msbBits_add, ReadWindow.append_toNat, ← msbBits_mod n (_ + _), Nat.mul_add_mod_self_right,
    Nat.mod_eq_of_lt y.isLt, Nat.add_comm, Nat.add_mul_div_right _ _ (Nat.two_pow_pos n),
    Nat.div_eq_of_lt y.isLt, Nat.zero_add]

theorem code_eq_high_append (c : Code) : c = c.extractLsb' 4 8 ++ c.extractLsb' 0 4 := by
  apply BitVec.eq_of_toNat_eq
  simp only [ReadWindow.append_toNat, BitVec.extractLsb'_toNat, Nat.shiftRight_eq_div_pow]
  omega

theorem code_eq_low_append (c : Code) : c = c.extractLsb' 8 4 ++ c.extractLsb' 0 8 := by
  apply BitVec.eq_of_toNat_eq
  simp only [ReadWindow.append_toNat, BitVec.extractLsb'_toNat, Nat.shiftRight_eq_div_pow]
  omega

/-- The first code of a pair: a byte, then half of one (R52). -/
theorem codeBits_first (c : Code) :
    codeBits c = byteBits (c.extractLsb' 4 8) ++ msbBits 4 (c.extractLsb' 0 4).toNat := by
  conv_lhs => rw [code_eq_high_append c]
  exact msbBits_append _ _

/-- The second code of a pair: half a byte, then a byte (R52). -/
theorem codeBits_second (c : Code) :
    codeBits c = msbBits 4 (c.extractLsb' 8 4).toNat ++ byteBits (c.extractLsb' 0 8) := by
  conv_lhs => rw [code_eq_low_append c]
  exact msbBits_append _ _

/-! ### Whole bytes -/

theorem ofMsbBits_msbBits (n v : Nat) : ofMsbBits (msbBits n v) = v % 2 ^ n := by
  induction n generalizing v with
  | zero => simp [msbBits, ofMsbBits, Nat.mod_one]
  | succ n ih =>
    have hlast : ofMsbBits (msbBits (n + 1) v) = 2 * ofMsbBits (msbBits n (v / 2)) + (v.testBit 0).toNat := by
      rw [msbBits_add]
      exact List.foldl_append ..
    rw [hlast, ih, Nat.toNat_testBit, Nat.pow_succ', Nat.mod_mul]
    simp [Nat.add_comm]

theorem byte_ofMsbBits (b : Byte) : BitVec.ofNat 8 (ofMsbBits (byteBits b)) = b :=
  BitVec.eq_of_toNat_eq (by rw [byteBits, ofMsbBits_msbBits]; simpa using b.isLt)

/-- The packer takes the bits of a byte off as that byte. -/
theorem packBits_byteBits (b : Byte) (rest : List Bool) : packBits (byteBits b ++ rest) = b :: packBits rest := by
  have hcut : packBits (byteBits b ++ rest) = BitVec.ofNat 8 (ofMsbBits (byteBits b)) :: packBits rest := rfl
  rw [hcut, byte_ofMsbBits]

/-! ### The body of a code sequence -/

theorem packCodes_pair (c d : Code) (cs : List Code) :
    packCodes (c :: d :: cs) =
      c.extractLsb' 4 8 :: (c.extractLsb' 0 4 ++ d.extractLsb' 8 4) :: d.extractLsb' 0 8 :: packCodes cs := by
  have hmid : msbBits 4 (c.extractLsb' 0 4).toNat ++ msbBits 4 (d.extractLsb' 8 4).toNat =
      byteBits (c.extractLsb' 0 4 ++ d.extractLsb' 8 4) := (msbBits_append _ _).symm
  calc packCodes (c :: d :: cs)
      = packBits (codeBits c ++ (codeBits d ++ cs.flatMap codeBits)) := rfl
    _ = packBits (byteBits (c.extractLsb' 4 8) ++ (byteBits (c.extractLsb' 0 4 ++ d.extractLsb' 8 4) ++
          (byteBits (d.extractLsb' 0 8) ++ cs.flatMap codeBits))) := by
      rw [codeBits_first c, codeBits_second d, ← hmid]
      simp only [List.append_assoc]
    _ = _ := by rw [packBits_byteBits, packBits_byteBits, packBits_byteBits, packCodes]

/-- One code alone: its top byte; its low four bits are dropped (R53). -/
theorem packCodes_single (c : Code) : packCodes [c] = [c.extractLsb' 4 8] := by
  calc packCodes [c] = packBits (byteBits (c.extractLsb' 4 8) ++ msbBits 4 (c.extractLsb' 0 4).toNat) := by
        rw [← codeBits_first, packCodes, List.flatMap_singleton]
    _ = _ := by rw [packBits_byteBits]; rfl

/-- Induction on a code sequence of even length, pair by pair. -/
theorem codePairs_induction {motive : (cs : List Code) → cs.length % 2 = 0 → Prop} (nil : motive [] rfl)
    (pair : ∀ c d cs h h', motive cs h → motive (c :: d :: cs) h') : ∀ cs h, motive cs h
  | [], _ => nil
  | [_], h => absurd h (by simp)
  | c :: d :: cs, h =>
    have hcs : cs.length % 2 = 0 := by simp only [List.length_cons] at h; omega
    pair c d cs hcs h (codePairs_induction nil pair cs hcs)

theorem length_packCodes {cs : List Code} (h : cs.length % 2 = 0) :
    (packCodes cs).length = 3 * cs.length / 2 := by
  induction cs, h using codePairs_induction with
  | nil => rfl
  | pair c d cs _ _ ih =>
    rw [packCodes_pair]
    simp only [List.length_cons, ih]
    omega

/-- An even body ends on a byte boundary (R53). -/
theorem packCodes_append {cs : List Code} (h : cs.length % 2 = 0) (ds : List Code) :
    packCodes (cs ++ ds) = packCodes cs ++ packCodes ds := by
  induction cs, h using codePairs_induction with
  | nil => rfl
  | pair c d cs _ _ ih => simp only [List.cons_append, packCodes_pair, ih]

/-- Settles O53: the middle byte is the low half of the one code beside the high half of the other. -/
theorem codePairFillsThreeBytes : Obligations.CodePairFillsThreeBytes := by
  unfold Obligations.CodePairFillsThreeBytes
  exact packCodes_pair

/-- Settles O54: an even body is whole pairs, and one more code packs as it does alone. -/
theorem bodyLength : Obligations.BodyLength := by
  unfold Obligations.BodyLength
  exact fun cs => ⟨length_packCodes, fun c h => by rw [packCodes_append h, packCodes_single]⟩

/-! ### BC_WRITE as the packer -/

variable {s : State}

/-- BC_WRITE with the count of its bits and of those it leaves (R64). -/
theorem bcWrite_eq {n m : Nat} (hn : s.wcnt.toNat + 12 = n) (hm : n % 8 = m) (c : Code) :
    bcWrite c s =
      { s with
        aout := s.aout ++ drainBytes (s.wbits.toNat * 2 ^ 12 + c.toNat) n n
        wbits := BitVec.ofNat 7 ((s.wbits.toNat * 2 ^ 12 + c.toNat) % 2 ^ m), wcnt := BitVec.ofNat 3 m } := by
  subst hn hm
  rfl

theorem drainBytes_twelve (acc : Nat) : drainBytes acc 12 12 = [BitVec.ofNat 8 (field acc 11 4)] := rfl

theorem drainBytes_sixteen (acc : Nat) :
    drainBytes acc 16 16 = [BitVec.ofNat 8 (field acc 15 8), BitVec.ofNat 8 (field acc 7 0)] := rfl

/-- BC_WRITE at a byte boundary: the code's top byte, and its low four bits stay (R64). -/
theorem bcWrite_aligned (h : s.wcnt = 0#3) (c : Code) :
    bcWrite c s =
      { s with aout := s.aout ++ [c.extractLsb' 4 8], wbits := (c.extractLsb' 0 4).setWidth 7, wcnt := 4#3 } := by
  have hhigh : BitVec.ofNat 8 (field (s.wbits.toNat * 2 ^ 12 + c.toNat) 11 4) = c.extractLsb' 4 8 := by
    apply BitVec.eq_of_toNat_eq
    simp only [field, BitVec.toNat_ofNat, BitVec.extractLsb'_toNat, Nat.shiftRight_eq_div_pow]
    omega
  have hlow : BitVec.ofNat 7 ((s.wbits.toNat * 2 ^ 12 + c.toNat) % 2 ^ 4) =
      (c.extractLsb' 0 4).setWidth 7 := by
    apply BitVec.eq_of_toNat_eq
    simp only [BitVec.toNat_ofNat, BitVec.toNat_setWidth, BitVec.extractLsb'_toNat, Nat.shiftRight_eq_div_pow]
    omega
  rw [bcWrite_eq (n := 12) (m := 4) (by rw [h]; rfl) rfl, drainBytes_twelve, hhigh, hlow]

/-- BC_WRITE with four bits left: the two bytes they fill up with the code (R64). -/
theorem bcWrite_half {x : BitVec 4} (h : s.wcnt = 4#3) (hx : s.wbits = x.setWidth 7) (c : Code) :
    bcWrite c s =
      { s with aout := s.aout ++ [x ++ c.extractLsb' 8 4, c.extractLsb' 0 8], wbits := 0#7, wcnt := 0#3 } := by
  have hx' : s.wbits.toNat = x.toNat := by
    rw [hx, BitVec.toNat_setWidth, Nat.mod_eq_of_lt (by omega)]
  have hhigh : BitVec.ofNat 8 (field (x.toNat * 2 ^ 12 + c.toNat) 15 8) = x ++ c.extractLsb' 8 4 := by
    apply BitVec.eq_of_toNat_eq
    simp only [field, ReadWindow.append_toNat, BitVec.toNat_ofNat, BitVec.extractLsb'_toNat,
      Nat.shiftRight_eq_div_pow]
    omega
  have hlow : BitVec.ofNat 8 (field (x.toNat * 2 ^ 12 + c.toNat) 7 0) = c.extractLsb' 0 8 := by
    apply BitVec.eq_of_toNat_eq
    simp only [field, BitVec.toNat_ofNat, BitVec.extractLsb'_toNat, Nat.shiftRight_eq_div_pow]
    omega
  rw [bcWrite_eq (n := 16) (m := 0) (by rw [h]; rfl) rfl, hx', drainBytes_sixteen, hhigh, hlow, Nat.pow_zero,
    Nat.mod_one]

/-- BC_WRITE of a pair at a byte boundary (R52, R64). -/
theorem bcWrite_pair (h : s.wcnt = 0#3) (c d : Code) :
    bcWrite d (bcWrite c s) =
      { s with
        aout := s.aout ++ [c.extractLsb' 4 8, c.extractLsb' 0 4 ++ d.extractLsb' 8 4, d.extractLsb' 0 8]
        wbits := 0#7, wcnt := 0#3 } := by
  rw [bcWrite_aligned h, bcWrite_half rfl rfl]
  simp only [List.append_assoc, List.singleton_append]

theorem writeCodes_even {cs : List Code} (hlen : cs.length % 2 = 0) (h : s.wcnt = 0#3) :
    (writeCodes cs s).aout = s.aout ++ packCodes cs ∧ (writeCodes cs s).wcnt = 0#3 := by
  induction cs, hlen using codePairs_induction generalizing s with
  | nil => exact ⟨(List.append_nil _).symm, h⟩
  | pair c d cs _ _ ih =>
    have hpair : writeCodes (c :: d :: cs) s = writeCodes cs (bcWrite d (bcWrite c s)) := by
      simp only [writeCodes, List.foldl_cons]
    obtain ⟨haout, hwcnt⟩ := ih (s := bcWrite d (bcWrite c s)) (by rw [bcWrite_pair h])
    rw [hpair]
    refine ⟨?_, hwcnt⟩
    rw [haout, bcWrite_pair h, packCodes_pair]
    exact List.append_assoc ..

theorem writeCodes_odd {cs : List Code} (hlen : cs.length % 2 = 0) (c : Code) (h : s.wcnt = 0#3) :
    (writeCodes (cs ++ [c]) s).aout = s.aout ++ packCodes (cs ++ [c]) ∧ (writeCodes (cs ++ [c]) s).wcnt = 4#3 ∧
      (writeCodes (cs ++ [c]) s).wbits = (c.extractLsb' 0 4).setWidth 7 := by
  obtain ⟨haout, hwcnt⟩ := writeCodes_even hlen h
  have hlast : writeCodes (cs ++ [c]) s = bcWrite c (writeCodes cs s) := List.foldl_append ..
  rw [hlast, bcWrite_aligned hwcnt, haout, packCodes_append hlen, packCodes_single]
  exact ⟨List.append_assoc .., rfl, rfl⟩

/-- Settles O55: an even sequence pair by pair; an odd one is an even one and one code more. -/
theorem writesProduceThePackedBody : Obligations.WritesProduceThePackedBody := by
  unfold Obligations.WritesProduceThePackedBody
  intro s cs h
  by_cases heven : cs.length % 2 = 0
  · obtain ⟨haout, hwcnt⟩ := writeCodes_even heven h
    exact ⟨haout, by rw [hwcnt, if_pos heven], fun _ _ _ hodd => absurd hodd (by omega)⟩
  · obtain rfl | ⟨ds, c, rfl⟩ := cs.eq_nil_or_concat'
    · exact absurd rfl heven
    · have hds : ds.length % 2 = 0 := by simp only [List.length_append, List.length_singleton] at heven; omega
      obtain ⟨haout, hwcnt, hwbits⟩ := writeCodes_odd hds c h
      refine ⟨haout, by rw [hwcnt, if_neg heven], fun e es heq _ => ?_⟩
      obtain ⟨-, hlast⟩ := List.append_inj' heq rfl
      rw [hwbits, ← List.singleton_inj.mp hlast, BitVec.toNat_setWidth, BitVec.extractLsb'_toNat,
        Nat.shiftRight_zero]
      omega

end Sys2Proof.Proofs.Packing

/-! BitCodec on the bit level (40_bitcodec.md R64 to R69): BC_WRITE appends twelve bits to the stream of bits, BC_READ
takes the twelve oldest, and so the reads of a packed body answer the codes it was packed from. -/

namespace Sys2Proof.Proofs.BitCodec

open Sys2Proof.Machine Sys2Proof.Claims Sys2Proof.Proofs.Packing Sys2Proof.Proofs.Invariant

variable {s : State}

/-! ### The selector words -/

/-- The selector words of a micro-operation without a code, whose low twelve bits are free (R61). -/
theorem decodeUop_uopWord_noCode (c : Code) :
    decodeUop (uopWord 0x1 c) = .bcRead ∧ decodeUop (uopWord 0x2 c) = .bcWclr ∧
      decodeUop (uopWord 0x3 c) = .bcRclr ∧ decodeUop (uopWord 0x4 c) = .dictReset ∧
      decodeUop (uopWord 0x5 c) = .dictAlloc ∧ decodeUop (uopWord 0x6 c) = .dictElookup := by
  simp [decodeUop, Encoding.field_sel_uopWord]

/-- Settles O34: the selector words, and the two meanings as their definitions give them. -/
theorem clearsEmptyTheBitBuffers : Obligations.ClearsEmptyTheBitBuffers := by
  unfold Obligations.ClearsEmptyTheBitBuffers
  refine ⟨fun c => ?_, fun s => ⟨rfl, rfl⟩⟩
  obtain ⟨-, hwclr, hrclr, -⟩ := decodeUop_uopWord_noCode c
  exact ⟨by rw [Encoding.append_eq_uopWord]; exact hwclr, by rw [Encoding.append_eq_uopWord]; exact hrclr⟩

/-! ### Bits and the numbers they write -/

@[simp] theorem length_msbBits (n v : Nat) : (msbBits n v).length = n := by simp [msbBits]

@[simp] theorem length_codeBits (c : Code) : (codeBits c).length = 12 := length_msbBits ..

@[simp] theorem length_byteBits (b : Byte) : (byteBits b).length = 8 := length_msbBits ..

theorem length_flatMap_byteBits (bs : Bytes) : (bs.flatMap byteBits).length = 8 * bs.length := by
  simp [List.length_flatMap, Nat.mul_comm]

/-- The bits of a number with a word shifted in behind it. -/
theorem msbBits_mul_add {m : Nat} (n v : Nat) (x : BitVec m) :
    msbBits (n + m) (v * 2 ^ m + x.toNat) = msbBits n v ++ msbBits m x.toNat := by
  have hhigh : (v * 2 ^ m + x.toNat) / 2 ^ m = v := by
    rw [Nat.mul_comm, Nat.mul_add_div (Nat.two_pow_pos m), Nat.div_eq_of_lt x.isLt, Nat.add_zero]
  rw [msbBits_add, hhigh, ← msbBits_mod m (_ + _), Nat.mul_add_mod_self_right, msbBits_mod]

/-- A number's low bits do not see a cut above them. -/
theorem msbBits_mod_of_le {n m : Nat} (h : n ≤ m) (v : Nat) : msbBits n (v % 2 ^ m) = msbBits n v := by
  rw [← msbBits_mod n (v % 2 ^ m), Nat.mod_mod_of_dvd v (Nat.pow_dvd_pow 2 h), msbBits_mod]

/-- A field of n bits written into a word of n bits is those bits. -/
theorem msbBits_ofNat_field {n hi lo : Nat} (h : hi + 1 = n + lo) (v : Nat) :
    msbBits n (BitVec.ofNat n (field v hi lo)).toNat = msbBits n (v / 2 ^ lo) := by
  rw [BitVec.toNat_ofNat, msbBits_mod, field, h, Nat.add_sub_cancel, msbBits_mod]

/-- A code is fixed by its bits. -/
theorem codeBits_inj {c d : Code} (h : codeBits c = codeBits d) : c = d := by
  have hnum := congrArg ofMsbBits h
  simp only [codeBits, codeWidth_eq, ofMsbBits_msbBits, Nat.mod_eq_of_lt (BitVec.isLt _)] at hnum
  exact BitVec.eq_of_toNat_eq hnum

/-! ### BC_WRITE -/

/-- The bytes that BC_WRITE emits and the residue below 8 bits are the bits of the accumulator (R64). -/
theorem flatMap_drainBytes (acc : Nat) : ∀ {fuel n : Nat}, n ≤ fuel →
    (drainBytes acc fuel n).flatMap byteBits ++ msbBits (n % 8) acc = msbBits n acc := by
  intro fuel
  induction fuel with
  | zero =>
    intro n h
    obtain rfl : n = 0 := Nat.le_zero.mp h
    rfl
  | succ fuel ih =>
    intro n h
    rw [drainBytes]
    split
    · rename_i hbyte
      obtain ⟨m, rfl⟩ := Nat.exists_eq_add_of_le hbyte
      have htop : byteBits (BitVec.ofNat 8 (field acc (8 + m - 1) m)) = msbBits 8 (acc / 2 ^ m) :=
        msbBits_ofNat_field (by omega) acc
      rw [Nat.add_sub_cancel_left, List.flatMap_cons, htop, List.append_assoc, Nat.add_mod_left, ih (by omega),
        ← msbBits_add]
    · rename_i hshort
      rw [Nat.mod_eq_of_lt (Nat.lt_of_not_le hshort)]
      rfl

/-- The residue of BC_WRITE is the low bits of the accumulator. -/
theorem msbBits_bcWrite (c : Code) (s : State) :
    msbBits (bcWrite c s).wcnt.toNat (bcWrite c s).wbits.toNat =
      msbBits ((s.wcnt.toNat + 12) % 8) (s.wbits.toNat * 2 ^ 12 + c.toNat) := by
  have hwbits : (bcWrite c s).wbits.toNat =
      (s.wbits.toNat * 2 ^ 12 + c.toNat) % 2 ^ ((s.wcnt.toNat + 12) % 8) % 2 ^ 7 := BitVec.toNat_ofNat ..
  rw [bcWrite_wcnt, hwbits, msbBits_mod_of_le (by omega), msbBits_mod]

/-- BC_WRITE moves the bits held and the bits of the code to AOUT and WBITS, and loses none (R64). -/
theorem bcWrite_bits (c : Code) (s : State) : ∃ out,
    bcWrite c s = { s with aout := s.aout ++ out, wbits := (bcWrite c s).wbits, wcnt := (bcWrite c s).wcnt } ∧
      out.flatMap byteBits ++ msbBits (bcWrite c s).wcnt.toNat (bcWrite c s).wbits.toNat =
        msbBits s.wcnt.toNat s.wbits.toNat ++ codeBits c := by
  refine ⟨_, rfl, ?_⟩
  rw [msbBits_bcWrite]
  exact (flatMap_drainBytes _ (Nat.le_refl _)).trans (msbBits_mul_add _ _ c)

/-- Settles O32: the residue is below 8 bits, as its count is. -/
theorem bcWriteAppendsTwelveBits : Obligations.BcWriteAppendsTwelveBits := by
  unfold Obligations.BcWriteAppendsTwelveBits
  refine ⟨fun c => ?_, fun s c => ?_⟩
  · rw [Encoding.append_eq_uopWord]
    exact (Encoding.decodeUop_uopWord c).1
  · obtain ⟨out, hwrite, hbits⟩ := bcWrite_bits c s
    exact ⟨out, _, _, congrArg Host.Outcome.next hwrite, hbits, bcWrite_wbits_lt c s⟩

/-! ### The loop of BC_READ -/

/-- The loop moves bits from the input to the accumulator and loses none (R67). -/
theorem pullBytes_bits (bs : Bytes) : ∀ {acc n acc' n' : Nat} {rest : Bytes},
    pullBytes acc n bs = (acc', n', rest) →
    msbBits n' acc' ++ rest.flatMap byteBits = msbBits n acc ++ bs.flatMap byteBits := by
  induction bs with
  | nil =>
    intro acc n acc' n' rest h
    cases h
    rfl
  | cons b bs ih =>
    intro acc n acc' n' rest h
    by_cases hfull : 12 ≤ n
    · rw [pullBytes_full hfull] at h
      cases h
      rfl
    · rw [pullBytes_step (Nat.lt_of_not_le hfull)] at h
      rw [ih h, msbBits_mul_add, List.append_assoc]
      rfl

/-- The loop takes whole bytes: all of them if they do not fill a code, and none that it does not need (R67). -/
theorem pullBytes_count (bs : Bytes) : ∀ {acc n acc' n' : Nat} {rest : Bytes},
    pullBytes acc n bs = (acc', n', rest) →
    ∃ k ≤ bs.length, n' = n + 8 * k ∧ rest = bs.drop k ∧ (n' < 12 → rest = []) ∧ (n < 12 → n' < 20) := by
  induction bs with
  | nil =>
    intro acc n acc' n' rest h
    cases h
    exact ⟨0, Nat.le_refl _, rfl, rfl, fun _ => rfl, fun h => by omega⟩
  | cons b bs ih =>
    intro acc n acc' n' rest h
    by_cases hfull : 12 ≤ n
    · rw [pullBytes_full hfull] at h
      cases h
      exact ⟨0, Nat.zero_le _, rfl, rfl, fun h => by omega, fun h => by omega⟩
    · rw [pullBytes_step (Nat.lt_of_not_le hfull)] at h
      obtain ⟨k, hk, hcount, hrest, hshort, hbound⟩ := ih h
      refine ⟨k + 1, Nat.succ_le_succ hk, by omega, hrest, hshort, fun _ => ?_⟩
      by_cases hmore : n + 8 < 12
      · exact hbound hmore
      · rw [pullBytes_full (Nat.le_of_not_lt hmore)] at h
        cases h
        omega

/-- The loop leaves no bit at or above its count. -/
theorem pullBytes_lt (bs : Bytes) : ∀ {acc n acc' n' : Nat} {rest : Bytes},
    pullBytes acc n bs = (acc', n', rest) → acc < 2 ^ n → acc' < 2 ^ n' := by
  induction bs with
  | nil =>
    intro acc n acc' n' rest h ha
    cases h
    exact ha
  | cons b bs ih =>
    intro acc n acc' n' rest h ha
    by_cases hfull : 12 ≤ n
    · rw [pullBytes_full hfull] at h
      cases h
      exact ha
    · rw [pullBytes_step (Nat.lt_of_not_le hfull)] at h
      refine ih h ?_
      rw [Nat.pow_add]
      have hb := b.isLt
      omega

/-! ### BC_READ -/

theorem bcRead_of_short {acc n : Nat} {rest : Bytes}
    (hp : pullBytes s.rbits.toNat s.rcnt.toNat s.ain = (acc, n, rest)) (hn : n < 12) :
    bcRead s = (none, { s with ain := rest, rbits := BitVec.ofNat 12 acc, rcnt := BitVec.ofNat 4 n }) := by
  rw [bcRead, hp]
  exact if_pos hn

theorem bcRead_of_full {acc m : Nat} {rest : Bytes}
    (hp : pullBytes s.rbits.toNat s.rcnt.toNat s.ain = (acc, 12 + m, rest)) :
    bcRead s = (some (BitVec.ofNat 12 (field acc (12 + m - 1) m)),
      { s with ain := rest, rbits := BitVec.ofNat 12 (acc % 2 ^ m), rcnt := BitVec.ofNat 4 m }) := by
  rw [bcRead, hp]
  dsimp only [codeWidth_eq]
  rw [if_neg (Nat.not_lt.mpr (Nat.le_add_right 12 m)), Nat.add_sub_cancel_left]

/-- The bits of the input, counted. -/
theorem length_inputBits (s : State) : (inputBits s).length = s.rcnt.toNat + 8 * s.ain.length := by
  rw [inputBits, List.length_append, length_msbBits, length_flatMap_byteBits]

/-- BC_READ with fewer than twelve bits on the input answers EXHAUSTED and keeps them all in RBITS (R67). -/
theorem bcRead_short (hlen : (inputBits s).length < 12) : ∃ rb rc,
    bcRead s = (none, { s with ain := [], rbits := rb, rcnt := rc }) ∧ msbBits rc.toNat rb.toNat = inputBits s ∧
      (s.rbits.toNat < 2 ^ s.rcnt.toNat → rb.toNat < 2 ^ rc.toNat) := by
  rcases hp : pullBytes s.rbits.toNat s.rcnt.toNat s.ain with ⟨acc, n, rest⟩
  have hbits : msbBits n acc ++ rest.flatMap byteBits = inputBits s := pullBytes_bits _ hp
  have hn : n < 12 := by
    rw [← hbits, List.length_append, length_msbBits] at hlen
    omega
  obtain ⟨k, -, -, -, hall, -⟩ := pullBytes_count _ hp
  obtain rfl := hall hn
  have hcnt : (BitVec.ofNat 4 n).toNat = n := Nat.mod_eq_of_lt (by omega)
  refine ⟨_, _, bcRead_of_short hp hn, ?_, fun hlt => ?_⟩
  · rw [hcnt, BitVec.toNat_ofNat, msbBits_mod_of_le (Nat.le_of_lt hn), ← hbits]
    exact (List.append_nil _).symm
  · rw [hcnt, BitVec.toNat_ofNat]
    exact Nat.lt_of_le_of_lt (Nat.mod_le _ _) (pullBytes_lt _ hp hlt)

/-- BC_READ with twelve bits on the input answers the oldest of them and pulls no byte it does not need (R67). -/
theorem bcRead_full (hcnt : s.rcnt.toNat ≤ 11) (hlen : 12 ≤ (inputBits s).length) : ∃ k c rb rc,
    bcRead s = (some c, { s with ain := s.ain.drop k, rbits := rb, rcnt := rc }) ∧ k ≤ s.ain.length ∧
      s.rcnt.toNat + 8 * k = 12 + rc.toNat ∧ rc.toNat ≤ 7 ∧ rb.toNat < 2 ^ rc.toNat ∧
      inputBits s = codeBits c ++ (msbBits rc.toNat rb.toNat ++ (s.ain.drop k).flatMap byteBits) := by
  rcases hp : pullBytes s.rbits.toNat s.rcnt.toNat s.ain with ⟨acc, n, rest⟩
  have hbits : msbBits n acc ++ rest.flatMap byteBits = inputBits s := pullBytes_bits _ hp
  obtain ⟨k, hk, hn, rfl, hall, hbound⟩ := pullBytes_count _ hp
  have hge : 12 ≤ n := by
    by_contra hlt
    rw [← hbits, hall (by omega), List.flatMap_nil, List.append_nil, length_msbBits] at hlen
    exact hlt hlen
  obtain ⟨m, rfl⟩ := Nat.exists_eq_add_of_le hge
  have hm : m ≤ 7 := by
    have := hbound (by omega)
    omega
  have hrc : (BitVec.ofNat 4 m).toNat = m := Nat.mod_eq_of_lt (by omega)
  have hrb : (BitVec.ofNat 12 (acc % 2 ^ m)).toNat = acc % 2 ^ m :=
    Nat.mod_eq_of_lt (Nat.lt_of_lt_of_le (Nat.mod_lt _ (Nat.two_pow_pos m))
      (Nat.pow_le_pow_right (by omega) (by omega)))
  have hcode : codeBits (BitVec.ofNat 12 (field acc (12 + m - 1) m)) = msbBits 12 (acc / 2 ^ m) :=
    msbBits_ofNat_field (n := 12) (by omega) acc
  refine ⟨k, _, _, _, bcRead_of_full hp, hk, by rw [hrc, hn], by rw [hrc]; exact hm, ?_, ?_⟩
  · rw [hrc, hrb]
    exact Nat.mod_lt _ (Nat.two_pow_pos m)
  · rw [← hbits, hrc, hrb, hcode, msbBits_mod, msbBits_add, List.append_assoc]

/-- Settles O33: BC_READ as a selector word writes the result lines beside what the read writes. -/
theorem bcReadTakesTwelveBits : Obligations.BcReadTakesTwelveBits := by
  unfold Obligations.BcReadTakesTwelveBits
  have hexec : ∀ s, exec .bcRead s = .next { (bcRead s).2 with uopRes := readResult (bcRead s).1 } := fun _ => rfl
  refine ⟨fun c => ?_, fun s => ?_, fun s hcnt => ⟨fun hlen => ?_, fun hlen => ?_⟩⟩
  · rw [Encoding.append_eq_uopWord]
    exact (decodeUop_uopWord_noCode c).1
  · obtain ⟨bs, rb, rc, hread⟩ := bcRead_frame s
    exact ⟨bs, rb, rc, _, by rw [hexec, hread]⟩
  · obtain ⟨rb, rc, hread, hbits, hlt⟩ := bcRead_short hlen
    exact ⟨rb, rc, by rw [hexec, hread]; rfl, hbits, hlt⟩
  · obtain ⟨k, c, rb, rc, hread, hk, hcount, hle, hlt, hbits⟩ := bcRead_full hcnt hlen
    refine ⟨k, c, rb, rc, by rw [hexec, hread]; rfl, hk, hcount, hle, ?_, ?_, hlt⟩
    · rw [hbits, List.take_left' (length_codeBits c)]
    · rw [hbits, hcount, ← List.take_drop, List.drop_left' (length_codeBits c), List.take_left' (length_msbBits ..)]

/-! ### The reads of a packed body -/

/-- The bits of an even body are the bits of its codes (R52). -/
theorem flatMap_packCodes {cs : List Code} (hlen : cs.length % 2 = 0) :
    (packCodes cs).flatMap byteBits = cs.flatMap codeBits := by
  induction cs, hlen using codePairs_induction with
  | nil => rfl
  | pair c d cs _ _ ih =>
    have hmid : byteBits (c.extractLsb' 0 4 ++ d.extractLsb' 8 4) =
        msbBits 4 (c.extractLsb' 0 4).toNat ++ msbBits 4 (d.extractLsb' 8 4).toNat := msbBits_append _ _
    rw [packCodes_pair]
    simp only [List.flatMap_cons, ih, hmid, codeBits_first c, codeBits_second d, List.append_assoc]

/-- With a code's bits at the head of the input, BC_READ answers that code and leaves the rest (R67). -/
theorem bcRead_of_inputBits {c : Code} {tail : List Bool} (hcnt : s.rcnt.toNat ≤ 11)
    (h : inputBits s = codeBits c ++ tail) : (bcRead s).1 = some c ∧ inputBits (bcRead s).2 = tail := by
  have hlen : 12 ≤ (inputBits s).length := by
    rw [h, List.length_append, length_codeBits]
    omega
  obtain ⟨k, d, rb, rc, hread, -, -, -, -, hbits⟩ := bcRead_full hcnt hlen
  obtain ⟨hcode, hrest⟩ := List.append_inj (hbits.symm.trans h) (by rw [length_codeBits, length_codeBits])
  rw [hread, codeBits_inj hcode]
  exact ⟨rfl, hrest⟩

/-- With the bits of codes at the head of the input, the reads answer those codes; further reads go on from a state
with the rest of the input. -/
theorem readCodes_of_inputBits {cs : List Code} {tail : List Bool} (hbuf : RbufBounds s.rbits s.rcnt)
    (h : inputBits s = cs.flatMap codeBits ++ tail) : ∃ t, RbufBounds t.rbits t.rcnt ∧ inputBits t = tail ∧
      ∀ n, readCodes (cs.length + n) s = (cs.map some ++ (readCodes n t).1, (readCodes n t).2) := by
  induction cs generalizing s with
  | nil => exact ⟨s, hbuf, h, fun n => by rw [List.length_nil, Nat.zero_add]; rfl⟩
  | cons c cs ih =>
    have hcnt : s.rcnt.toNat ≤ 11 := by
      obtain ⟨e | e | e, -⟩ := hbuf
      all_goals rw [e]; decide
    rw [List.flatMap_cons, List.append_assoc] at h
    obtain ⟨hcode, hrest⟩ := bcRead_of_inputBits hcnt h
    obtain ⟨t, htbuf, htbits, hreads⟩ := ih (rbufBounds_bcRead hbuf) hrest
    refine ⟨t, htbuf, htbits, fun n => ?_⟩
    rw [List.length_cons, Nat.add_right_comm, readCodes, hcode, hreads n]
    rfl

/-- A read with one byte's bits on the input is EXHAUSTED and leaves the byte in RBITS (R69). -/
theorem bcRead_of_byte {b : Byte} (hbuf : RbufBounds s.rbits s.rcnt) (h : inputBits s = byteBits b) :
    (bcRead s).1 = none ∧ (bcRead s).2.rcnt = 8#4 ∧ (bcRead s).2.ain = [] ∧
      (bcRead s).2.rbits.toNat = b.toNat := by
  obtain ⟨rb, rc, hread, hbits, hlt⟩ := bcRead_short (s := s) (by rw [h, length_byteBits]; decide)
  rw [h] at hbits
  have hcnt : rc.toNat = 8 := by simpa using congrArg List.length hbits
  have hnum : rb.toNat = b.toNat := by
    have hval := congrArg ofMsbBits hbits
    rwa [byteBits, ofMsbBits_msbBits, ofMsbBits_msbBits, Nat.mod_eq_of_lt (hlt hbuf.2),
      Nat.mod_eq_of_lt b.isLt] at hval
  rw [hread]
  exact ⟨rfl, BitVec.eq_of_toNat_eq hcnt, rfl, hnum⟩

/-- Settles O56: the body's bits are those of its codes, and the last code of an odd number leaves its top byte. -/
theorem readsReturnTheWrittenCodes : Obligations.ReadsReturnTheWrittenCodes := by
  unfold Obligations.ReadsReturnTheWrittenCodes
  intro cs s hrcnt hrbits heven
  have hbuf : RbufBounds s.rbits s.rcnt := by
    rw [hrcnt, hrbits]
    exact ⟨.inl rfl, by decide⟩
  have hin : inputBits s = s.ain.flatMap byteBits := by
    rw [inputBits, hrcnt]
    rfl
  refine ⟨fun hain => ?_, fun c hain => ?_⟩
  · have hbits : inputBits s = cs.flatMap codeBits ++ [] := by
      rw [hin, hain, flatMap_packCodes heven, List.append_nil]
    obtain ⟨t, -, htbits, hreads⟩ := readCodes_of_inputBits hbuf hbits
    have hlen : t.rcnt.toNat + 8 * t.ain.length = 0 := by rw [← length_inputBits, htbits]; rfl
    have hall : readCodes cs.length s = (cs.map some ++ [], t) := hreads 0
    have hcnt : t.rcnt = 0#4 := BitVec.eq_of_toNat_eq (by rw [BitVec.toNat_ofNat]; omega)
    have hempty : t.ain = [] := List.length_eq_zero_iff.mp (by omega)
    rw [hall]
    exact ⟨List.append_nil _, hcnt, hempty⟩
  · have hbits : inputBits s = cs.flatMap codeBits ++ byteBits (c.extractLsb' 4 8) := by
      rw [hin, hain, packCodes_append heven, packCodes_single, List.flatMap_append, flatMap_packCodes heven,
        List.flatMap_singleton]
    obtain ⟨t, htbuf, htbits, hreads⟩ := readCodes_of_inputBits hbuf hbits
    obtain ⟨hnone, hcnt, hempty, hlast⟩ := bcRead_of_byte htbuf htbits
    have hall : readCodes (cs.length + 1) s = (cs.map some ++ [(bcRead t).1], (bcRead t).2) := hreads 1
    have htop : (c.extractLsb' 4 8).toNat = c.toNat / 16 := by
      rw [BitVec.extractLsb'_toNat, Nat.shiftRight_eq_div_pow]
      have := c.isLt
      omega
    rw [hall, hnone]
    exact ⟨rfl, hcnt, hempty, hlast.trans htop⟩

end Sys2Proof.Proofs.BitCodec

/-! The dictionary's micro-operations as selector words (41_dictionary.md R70 to R78): each decodes from every word of
its selector, and what it answers and writes. -/

namespace Sys2Proof.Proofs.Dictionary

open Sys2Proof.Machine Sys2Proof.Claims Sys2Proof.Proofs.Moves Sys2Proof.Proofs.Invariant

variable {s : State} {c : Code}

/-! ### DICT_ELOOKUP -/

/-- A search in rising order stops at the lowest listed code that it accepts. -/
theorem find?_le_of_risingFrom {p : Nat × Bytes → Bool} {m : Memory} {lo : Nat}
    (hm : Memory.risingFrom lo m = true) {e e' : Nat × Bytes} (hfind : m.find? p = some e) (hmem : e' ∈ m)
    (hp : p e' = true) : e.1 ≤ e'.1 := by
  induction m generalizing lo with
  | nil => cases hmem
  | cons a m ih =>
    simp only [Memory.risingFrom, Bool.and_eq_true] at hm
    obtain ⟨-, htail⟩ := hm
    rw [List.find?_cons] at hfind
    split at hfind
    · cases hfind
      obtain rfl | hmem := List.mem_cons.mp hmem
      · exact Nat.le_refl _
      · exact Nat.le_of_succ_le (memRead_of_mem htail hmem).1
    · rename_i hnot
      obtain rfl | hmem := List.mem_cons.mp hmem
      · rw [hp] at hnot
        cases hnot
      · exact ih htail hfind hmem

/-- No dynamic code that holds the string is below the one DICT_ELOOKUP answers (R75). -/
theorem dictElookup_le {x : Bytes} {d : Nat} (hwf : s.entry.wf = true) (hx : 2 ≤ x.length)
    (hfound : dictElookup x s = some c) (hd : Holds s d x) : c.toNat ≤ d := by
  obtain ⟨hlow, hlt, hread⟩ := hd
  rw [dictElookup_scan (by omega)] at hfound
  obtain ⟨e, hfind, rfl⟩ := Option.map_eq_some_iff.mp hfound
  have hmem : (d, x) ∈ s.entry := mem_of_memRead hread (List.ne_nil_of_length_pos (by omega))
  have hp : holdsString s.nextCode.toNat x (d, x) = true := by simpa [holdsString] using ⟨hlow, hlt⟩
  calc (BitVec.ofNat 12 e.1).toNat ≤ e.1 := by rw [BitVec.toNat_ofNat]; exact Nat.mod_le ..
    _ ≤ d := find?_le_of_risingFrom hwf hfind hmem hp

/-- DICT_ELOOKUP answers the lowest dynamic code of the epoch that holds the string (R75). -/
theorem dictElookup_eq_some {x : Bytes} (hwf : s.entry.wf = true) (hx : 2 ≤ x.length)
    (hc : Holds s c.toNat x) (hlowest : ∀ d, d < c.toNat → ¬ Holds s d x) : dictElookup x s = some c := by
  obtain ⟨k, hk⟩ := dictElookup_isSome (List.ne_nil_of_length_pos (by omega)) hc
  have hle : k.toNat ≤ c.toNat := dictElookup_le hwf hx hk hc
  have hge : ¬ k.toNat < c.toNat := fun hlt => hlowest _ hlt (dictElookup_holds hwf (by omega) hk)
  rw [hk, BitVec.eq_of_toNat_eq (Nat.le_antisymm hle (Nat.le_of_not_lt hge))]

/-- DICT_ELOOKUP of a string that no dynamic code of the epoch holds is absent (R75). -/
theorem dictElookup_eq_none {x : Bytes} (hwf : s.entry.wf = true) (hx : 2 ≤ x.length)
    (habsent : ∀ d, ¬ Holds s d x) : dictElookup x s = none :=
  Option.eq_none_iff_forall_ne_some.mpr fun k hk => habsent k.toNat (dictElookup_holds hwf (by omega) hk)

theorem literalCode_eq_append (b : Byte) : literalCode b = 0x0#4 ++ b :=
  BitVec.setWidth_eq_append (by decide)

theorem exec_dictElookup (s : State) :
    exec .dictElookup s = .next { s with uopRes := codeResult (dictElookup s.strBus s) } := rfl

/-- Settles O36: the entry memory lists its codes in rising order, so the first hit is the lowest. -/
theorem elookupFindsTheLowestCode : Obligations.ElookupFindsTheLowestCode := by
  unfold Obligations.ElookupFindsTheLowestCode
  refine ⟨fun c => ?_, fun s hwf _ => ⟨fun b hb => ?_, fun c hlen hc hlowest => ?_, fun hlen habsent => ?_⟩⟩
  · obtain ⟨-, -, -, -, -, hdecode⟩ := BitCodec.decodeUop_uopWord_noCode c
    rw [Encoding.append_eq_uopWord]
    exact hdecode
  · rw [exec_dictElookup, hb, dictElookup_single, literalCode_eq_append]
    rfl
  · rw [exec_dictElookup, dictElookup_eq_some hwf hlen hc hlowest]
    rfl
  · rw [exec_dictElookup, dictElookup_eq_none hwf hlen habsent]
    rfl

/-! ### DICT_EINSERT and DICT_DINSERT -/

/-- The two insertions differ in the operand order alone (R78). -/
theorem exec_insert (h : insertable c s.strBus s = true) :
    exec (.dictEinsert c) s = .next (withInserted c s.strBus s) ∧
      exec (.dictDinsert c) s = .next (withInserted c s.strBus s) :=
  ⟨congrArg inserted (insertEntry_of_insertable h), congrArg inserted (insertEntry_of_insertable h)⟩

/-- Settles O38: both insertions write the one entry of the allocated code, which NEXT then follows. -/
theorem insertsStoreTheStringAtNext : Obligations.InsertsStoreTheStringAtNext := by
  unfold Obligations.InsertsStoreTheStringAtNext
  refine ⟨fun c => ?_, fun s c hnext hlow hhigh hshort hlong hwf => ?_⟩
  · obtain ⟨-, heinsert, -, hdinsert⟩ := Encoding.decodeUop_uopWord c
    exact ⟨by rw [Encoding.append_eq_uopWord]; exact heinsert, by rw [Encoding.append_eq_uopWord]; exact hdinsert⟩
  · obtain ⟨heinsert, hdinsert⟩ := exec_insert ((insertable_iff ..).mpr ⟨hnext, hlow, hhigh, hshort, hlong⟩)
    exact ⟨withInserted c s.strBus s, heinsert, hdinsert, rfl, withInserted_nextCode hhigh _,
      memRead_memWrite_same _ _ hwf, fun d hd => memRead_memWrite_other _ hd _⟩

/-! ### DICT_RESET and DICT_ALLOC -/

theorem exec_dictAlloc (s : State) :
    exec .dictAlloc s = .next { (dictAlloc s).2 with uopRes := .code (dictAlloc s).1 } := rfl

/-- Settles O35: an allocation starts a new epoch only when the epoch is full. -/
theorem dictResetAndAlloc : Obligations.DictResetAndAlloc := by
  unfold Obligations.DictResetAndAlloc
  refine ⟨fun c => ?_, fun s => ⟨rfl, fun hfull => ?_, fun hroom => ?_⟩⟩
  · obtain ⟨-, -, -, hreset, halloc, -⟩ := BitCodec.decodeUop_uopWord_noCode c
    exact ⟨by rw [Encoding.append_eq_uopWord]; exact hreset, by rw [Encoding.append_eq_uopWord]; exact halloc⟩
  · obtain ⟨-, halloc⟩ | ⟨hne, -⟩ := dictAlloc_cases s
    · rw [exec_dictAlloc, halloc]
      rfl
    · exact absurd (congrArg BitVec.toNat hfull) hne
  · obtain ⟨heq, -⟩ | ⟨-, halloc⟩ := dictAlloc_cases s
    · exact absurd (BitVec.eq_of_toNat_eq heq) hroom
    · rw [exec_dictAlloc, halloc]

/-! ### DICT_DLOOKUP -/

/-- D(c) of R29 is what DICT_DLOOKUP answers. -/
theorem dictDlookup_eq_stringOf (c : Code) (s : State) : dictDlookup c s = stringOf c.toNat s := by
  rw [dictDlookup, stringOf, literalString, BitVec.ofNat_toNat]

theorem exec_dictDlookup (c : Code) (s : State) :
    exec (.dictDlookup c) s = .next { s with uopRes := strResult (stringOf c.toNat s) } := by
  rw [← dictDlookup_eq_stringOf]
  rfl

/-- Settles O37: the result lines carry D(c). -/
theorem dlookupAnswersTheString : Obligations.DlookupAnswersTheString := by
  unfold Obligations.DlookupAnswersTheString
  refine ⟨fun c => ?_, fun s c => ⟨fun x hx => ?_, fun habsent => ?_⟩⟩
  · obtain ⟨-, -, hdecode, -⟩ := Encoding.decodeUop_uopWord c
    rw [Encoding.append_eq_uopWord]
    exact hdecode
  · rw [exec_dictDlookup, hx]
    rfl
  · rw [exec_dictDlookup, habsent]
    rfl

end Sys2Proof.Proofs.Dictionary

/-! The commands by their words and modes (30_encoding.md R58, 44_framer.md R96, R97): the word of each dispatched
command, SEQ_ERROR outside its mode, and its rule inside. -/

namespace Sys2Proof.Proofs.Commands

open Sys2Proof.Machine Sys2Proof.Claims Sys2Proof.Proofs.Moves Sys2Proof.Proofs.Invariant

variable {s t : State} {i : Instr} {r : Rule}

theorem encode_of_ruleOf (hr : ruleOf i = some r) : encode i = .cmd (cmdWord r.op r.imm) := by
  cases i <;> cases hr <;> rfl

theorem wf_of_ruleOf (hr : ruleOf i = some r) : i.wf = true := by
  cases i <;> cases hr <;> rfl

theorem legal_modeOfOp (hr : ruleOf i = some r) : legal (modeOfOp r.op) r.op = true := by
  cases i <;> cases hr <;> rfl

theorem decodeCmd_of_ruleOf (hr : ruleOf i = some r) : decodeCmd (cmdWord r.op r.imm) = .ok i := by
  have hdec := Encoding.decode_encode (wf_of_ruleOf hr)
  rw [encode_of_ruleOf hr] at hdec
  exact hdec

/-- The encoding and legality lines of every dispatched command. -/
theorem commandHead_of_ruleOf {w : Word} (hr : ruleOf i = some r) (hw : w = cmdWord r.op r.imm) :
    CommandHead w i (modeOfOp r.op) := by
  subst hw
  refine ⟨decodeCmd_of_ruleOf hr, encode_of_ruleOf hr, fun s hb hf hm => ?_⟩
  have hl : legal s.mode r.op = false :=
    Bool.eq_false_iff.mpr fun hl => hm (mode_of_legal (ruleOf_op_ne_abort hr) hl)
  rw [exec_of_ruleOf hr, command_illegal hb hf hl]
  rfl

/-- In its mode a command runs its rule (R96). -/
theorem exec_of_ready (hr : ruleOf i = some r) (hs : Ready (modeOfOp r.op) s) : exec i s = r.body s := by
  obtain ⟨hb, hm⟩ := hs
  have hl : legal s.mode r.op = true := hm ▸ legal_modeOfOp hr
  have hf : s.mode ≠ .fault := by
    intro hf
    rw [hf] at hl
    exact ruleOf_op_ne_abort hr (by simpa [legal, legalOps] using hl)
  rw [exec_of_ruleOf hr, command_run hb hf hl]

/-- The fields of a command word, side by side (R56). -/
theorem append_eq_cmdWord (op : BitVec 4) (b : Byte) : (op ++ 0#20) ++ b = cmdWord op.toNat b := by
  apply BitVec.eq_of_toNat_eq
  rw [ReadWindow.append_toNat, ReadWindow.append_toNat, Laws.TableRow.cmdWord_toNat op.isLt, BitVec.toNat_ofNat]
  omega

/-! ### The moves between commands -/

theorem busy_eq_false (h : Inv s) (hn : s.mode ≠ .dhdr) (hd : s.mode ≠ .dfile) : s.busy = false :=
  Bool.eq_false_iff.mpr fun hb => (h.busyMode hb).elim hn hd

theorem illegalWord_mode {w : Word} (e : illegalWord w s = .next t) : t.mode = .fault := by
  obtain ⟨-, ⟨hf, rfl⟩ | ⟨-, rfl⟩⟩ := illegalWord_next e
  · exact hf
  · rfl

/-- An instruction of the command port ends in FAULT, is ABORT, or runs its rule in its mode (R96, R97). -/
theorem exec_decodeCmd_cases {w : Word} (hdec : decodeCmd w = .ok i) (e : exec i s = .next t) :
    t.mode = .fault ∨ (w = 0xD0000000#32 ∧ t = resetRegisters s) ∨
      ∃ r, ruleOf i = some r ∧ s.mode = modeOfOp r.op ∧ r.body s = .next t := by
  have henc := encode_of_decodeCmd hdec
  cases hr : ruleOf i with
  | some r =>
    rw [exec_of_ruleOf hr] at e
    obtain ⟨-, ⟨hf, rfl⟩ | ⟨-, hl, hbody⟩ | ⟨-, -, rfl⟩⟩ := command_next e
    · exact .inl hf
    · exact .inr (.inr ⟨r, rfl, mode_of_legal (ruleOf_op_ne_abort hr) hl, hbody⟩)
    · exact .inl rfl
  | none =>
    cases i with
    | abort => exact .inr (.inl ⟨decodeCmd_abort hdec, (execAbort_next e).2⟩)
    | illegalOp0 | illegalOpE | illegalOpF => exact .inl (illegalWord_mode e)
    | cStart | cNameb | cNameend | cHdrend | cFbegin | cData | cFend | cFinish | dStart | dName | dFile
    | dFinish => cases hr
    | bcWrite | bcRead | bcWclr | bcRclr | dictReset | dictAlloc | dictElookup | dictEinsert | dictDlookup
    | dictDinsert | uopReserved | sent | lit | dyn => cases henc

/-- A move of a core that is not busy ends in FAULT, waits, is ABORT, or runs the rule of a command that its mode
admits. -/
theorem move_of_not_busy (h : Inv s) (hb : s.busy = false) (hmove : Move s t) :
    t.mode = .fault ∨ t = s ∨ (s.cmdq.head? = some 0xD0000000#32 ∧ t.mode = .idle) ∨
      ∃ i r rest, ruleOf i = some r ∧ s.mode = modeOfOp r.op ∧ r.body { s with cmdq := rest } = .next t := by
  cases hmove with
  | uop w port run => exact absurd (h.noUop.symm.trans port) nofun
  | name port busy | emit port busy | code port busy | exhausted port busy =>
    exact absurd (hb.symm.trans busy) nofun
  | wait port busy cmdq eq => exact .inr (.inl eq)
  | command port busy w rest i cmdq decode run =>
    obtain hf | ⟨rfl, rfl⟩ | ⟨r, hr, hm, hbody⟩ := exec_decodeCmd_cases decode run
    · exact .inl hf
    · exact .inr (.inr (.inl ⟨by rw [cmdq]; rfl, rfl⟩))
    · exact .inr (.inr (.inr ⟨i, r, rest, hr, hm, hbody⟩))
  | illegal port busy w rest r cmdq decode run => exact .inl (illegalWord_mode run)

end Sys2Proof.Proofs.Commands

/-! The encoder (42_encoder.md R79 to R84): what C_FBEGIN, C_DATA and C_FEND do, and what the invariant says of the
match S. -/

namespace Sys2Proof.Proofs.Encoder

open Sys2Proof.Machine Sys2Proof.Claims Sys2Proof.Proofs.Moves Sys2Proof.Proofs.Invariant
  Sys2Proof.Proofs.Commands

variable {s : State}

/-! ### Allocation and insertion in the words of the statements -/

/-- DICT_ALLOC answers the allocated code and leaves NEXT at it (R74). -/
theorem dictAlloc_eq_allocated (s : State) : dictAlloc s = (allocated s, { s with nextCode := allocated s }) := by
  obtain ⟨hfull, halloc⟩ | ⟨hroom, halloc⟩ := dictAlloc_cases s
  · have hcode : allocated s = 256#12 := if_pos (BitVec.eq_of_toNat_eq hfull)
    rw [halloc, hcode]
    rfl
  · have hcode : allocated s = s.nextCode := if_neg fun hfull => hroom (congrArg BitVec.toNat hfull)
    rw [halloc, hcode]

theorem withInserted_eq_withEntry (n : Code) (x : Bytes) (s : State) :
    withInserted n x s = withEntry n x s := by
  have hsucc : BitVec.ofNat 12 (n.toNat + 1) = n + 1#12 := by
    rw [BitVec.ofNat_add, BitVec.ofNat_toNat, BitVec.setWidth_eq]
  rw [withInserted, hsucc, withEntry]

/-- The allocated code admits a string of 2 to MAX_ENTRY_LEN bytes (R33, R74). -/
theorem insertable_allocated {x : Bytes} (hlow : 256 ≤ s.nextCode.toNat) (hshort : 2 ≤ x.length)
    (hlong : x.length ≤ 3841) : insertable (allocated s) x { s with nextCode := allocated s } = true := by
  obtain ⟨-, hcodeLow, hcodeHigh⟩ := dictAlloc_code hlow
  rw [dictAlloc_eq_allocated] at hcodeLow hcodeHigh
  exact (insertable_iff ..).mpr ⟨rfl, hcodeLow, hcodeHigh, hshort, hlong⟩

/-! ### The commands -/

/-- The mismatch branch of C_DATA (R80): the code emitted for S is that of the epoch before the allocation (R123). -/
theorem emitAndInsert_found {k : Code} {b : Byte} (hs : s.sbuf ≠ []) (hk : dictElookup s.sbuf s = some k)
    (hlen : s.sbuf.length ≤ 3840) (hlow : 256 ≤ s.nextCode.toNat) :
    emitAndInsert [b] s =
      .next { withEntry (allocated s) (s.sbuf ++ [b]) (bcWrite k s) with sbuf := [b] } := by
  have hpos : 0 < s.sbuf.length := List.length_pos_iff.mpr hs
  have hgrown : (s.sbuf ++ [b]).length = s.sbuf.length + 1 := List.length_append
  have hins : insertable (allocated s) (s.sbuf ++ [b]) { bcWrite k s with nextCode := allocated s } = true :=
    insertable_allocated (s := bcWrite k s) hlow (by omega) (by omega)
  have hcode : allocated (bcWrite k s) = allocated s := rfl
  simp only [emitAndInsert, hk, dictAlloc_eq_allocated, hcode, dictEinsert, insertEntry_of_insertable hins]
  rw [← withInserted_eq_withEntry]
  rfl

/-- Settles O19: the three branches are those of R80, and the third allocates and inserts after it has written. -/
theorem cDataExtendsOrEmits : Obligations.CDataExtendsOrEmits := by
  unfold Obligations.CDataExtendsOrEmits
  refine ⟨fun b => ?_, fun s b hready => ?_⟩
  · exact commandHead_of_ruleOf (i := .cData b) rfl (append_eq_cmdWord 0x6#4 b)
  · rw [exec_of_ready (i := .cData b) rfl hready]
    refine ⟨fun hs => ?_, fun k hs hk => ?_, fun k hs hnone hk hlen hlow => ?_⟩
    · simp only [encodeByte, hs, if_true, immString]
    · simp only [encodeByte, hs, if_false, immString, hk]
    · rw [← emitAndInsert_found hs hk hlen hlow]
      simp only [encodeByte, hs, if_false, immString, hnone]

/-- Settles O18: the rule tests the count once. -/
theorem cFbeginStartsASegment : Obligations.CFbeginStartsASegment := by
  unfold Obligations.CFbeginStartsASegment
  refine ⟨commandHead_of_ruleOf (i := .cFbegin) rfl rfl, fun s hready => ?_⟩
  rw [exec_of_ready (i := .cFbegin) rfl hready]
  exact ⟨fun hfull => if_pos hfull, fun hroom => if_neg (Nat.not_le_of_lt hroom)⟩

/-- Settles O20: an empty match writes no code before the sentinel. -/
theorem cFendFlushesMatchAndSentinel : Obligations.CFendFlushesMatchAndSentinel := by
  unfold Obligations.CFendFlushesMatchAndSentinel
  refine ⟨commandHead_of_ruleOf (i := .cFend) rfl rfl, fun s hready => ?_⟩
  rw [exec_of_ready (i := .cFend) rfl hready]
  refine ⟨fun hs => if_pos hs, fun k hs hk => ?_⟩
  simp only [endSegment, hs, if_false, hk]
  rfl

/-! ### The match under the invariant -/

/-- The lengths 2 to |S| are lengths of entries of the epoch, so there are at most as many as dynamic codes: S has at
most MAX_MATCH_LEN bytes (R83). -/
theorem sbuf_length_le (h : Inv s) : s.sbuf.length ≤ 3840 := by
  have hsub : Finset.Icc 2 s.sbuf.length ⊆
      (Finset.Ico 256 s.nextCode.toNat).image fun c => (memRead c s.entry).length := by
    intro k hk
    obtain ⟨hshort, hle⟩ := Finset.mem_Icc.mp hk
    obtain ⟨c, hlow, hlt, hread⟩ := h.matchPrefixes k hshort hle
    exact Finset.mem_image.mpr ⟨c, Finset.mem_Ico.mpr ⟨hlow, hlt⟩, by rw [hread, List.length_take_of_le hle]⟩
  have hcard : (Finset.Icc 2 s.sbuf.length).card ≤ (Finset.Ico 256 s.nextCode.toNat).card :=
    (Finset.card_le_card hsub).trans Finset.card_image_le
  rw [Nat.card_Icc, Nat.card_Ico] at hcard
  have hnext := code_lt s.nextCode
  omega

theorem stringOf_of_holds {c : Nat} {x : Bytes} (hc : Holds s c x) : stringOf c s = some x := by
  obtain ⟨hlow, hlt, rfl⟩ := hc
  rw [stringOf, if_neg (Nat.not_lt.mpr hlow), if_pos hlt]

theorem stringOf_literalCode (b : Byte) (s : State) : stringOf (literalCode b).toNat s = some [b] := by
  have hb : (literalCode b).toNat = b.toNat := BitVec.toNat_setWidth_of_le (by decide)
  rw [hb, stringOf, if_pos b.isLt, BitVec.ofNat_toNat, BitVec.setWidth_eq]

/-- The invariant at k = |S|: the epoch holds a match of two or more bytes (R82). -/
theorem sbuf_holds (h : Inv s) (hlen : 2 ≤ s.sbuf.length) : ∃ c, Holds s c s.sbuf := by
  obtain ⟨c, hc⟩ := h.matchPrefixes _ hlen le_rfl
  exact ⟨c, by rwa [List.take_length] at hc⟩

/-- A non-empty match has a code, and the code's string is the match (R82). -/
theorem dictElookup_sbuf (h : Inv s) (hs : s.sbuf ≠ []) :
    ∃ k, dictElookup s.sbuf s = some k ∧ stringOf k.toNat s = some s.sbuf := by
  by_cases hone : s.sbuf.length = 1
  · obtain ⟨b, hb⟩ := List.length_eq_one_iff.mp hone
    rw [hb]
    exact ⟨_, dictElookup_single b s, stringOf_literalCode b s⟩
  · have hpos : 0 < s.sbuf.length := List.length_pos_iff.mpr hs
    obtain ⟨c, hc⟩ := sbuf_holds h (by omega)
    obtain ⟨k, hk⟩ := dictElookup_isSome hs hc
    exact ⟨k, hk, stringOf_of_holds (dictElookup_holds h.memWf hone hk)⟩

/-- Settles O43: the bound counts codes of the epoch, and a literal or a dynamic code holds S. -/
theorem matchIsBoundedAndPresent : Obligations.MatchIsBoundedAndPresent := by
  unfold Obligations.MatchIsBoundedAndPresent
  exact fun s h => ⟨sbuf_length_le h, dictElookup_sbuf h⟩

end Sys2Proof.Proofs.Encoder

/-! The ends of segments and of a compress operation (42_encoder.md R81, 43_decoder.md R89, 44_framer.md R102), as the
only moves between their modes. -/

namespace Sys2Proof.Proofs.SegmentEnds

open Sys2Proof.Machine Sys2Proof.Proofs.Moves Sys2Proof.Proofs.Invariant Sys2Proof.Proofs.Commands

variable {s t : State} {i : Instr} {r : Rule}

/-! ### The compress path -/

theorem encodeByte_mode {b : Byte} (e : encodeByte b s = .next t) : t.mode = s.mode := by
  obtain ⟨-, rfl⟩ | ⟨-, -, rfl⟩ | ⟨-, -, hemit⟩ := encodeByte_next e
  · rfl
  · rfl
  · obtain ⟨k, n, -, -, -, rfl⟩ := emitAndInsert_next hemit
    rfl

theorem endSegment_fidx (e : endSegment s = .next t) : t.fidx = s.fidx + 1 := by
  obtain ⟨-, rfl⟩ | ⟨-, k, -, rfl⟩ := endSegment_next e
  · rfl
  · rfl

/-- Of the two commands of CFILE only C_FEND ends in CBODY. -/
theorem rule_cfile_to_cbody (hr : ruleOf i = some r) (hop : modeOfOp r.op = .cfile) (hm : s.mode = .cfile)
    (e : r.body s = .next t) (ht : t.mode = .cbody) : t.fidx = s.fidx + 1 := by
  cases i with
  | cData b =>
    cases hr
    exact absurd (((encodeByte_mode e).trans hm).symm.trans ht) nofun
  | cFend =>
    cases hr
    exact endSegment_fidx e
  | _ => cases hr <;> cases hop

/-- Of the two commands of CBODY only C_FINISH ends in IDLE. -/
theorem rule_cbody_to_idle (hr : ruleOf i = some r) (hop : modeOfOp r.op = .cbody) (e : r.body s = .next t)
    (ht : t.mode = .idle) : s.fidx = s.nfiles := by
  cases i with
  | cFbegin =>
    cases hr
    obtain ⟨-, rfl⟩ | ⟨-, rfl⟩ := beginSegment_next e
    all_goals cases ht
  | cFinish =>
    cases hr
    obtain ⟨-, rfl⟩ | ⟨hfidx, -⟩ := closeCompress_next e
    · cases ht
    · exact hfidx
  | _ => cases hr <;> cases hop

theorem move_cfile_to_cbody (h : Inv s) (hmove : Move s t) (hm : s.mode = .cfile) (ht : t.mode = .cbody) :
    t.fidx = s.fidx + 1 := by
  have hb : s.busy = false := busy_eq_false h (by simp [hm]) (by simp [hm])
  obtain hf | rfl | ⟨-, hidle⟩ | ⟨i, r, rest, hr, hop, hbody⟩ := move_of_not_busy h hb hmove
  · exact absurd (hf.symm.trans ht) nofun
  · exact absurd (hm.symm.trans ht) nofun
  · exact absurd (hidle.symm.trans ht) nofun
  · exact rule_cfile_to_cbody (s := { s with cmdq := rest }) hr (hop.symm.trans hm) hm hbody ht

theorem move_cbody_to_idle (h : Inv s) (hmove : Move s t) (hm : s.mode = .cbody) (ht : t.mode = .idle)
    (hword : s.cmdq.head? = some 0x80000000#32) : s.fidx = s.nfiles := by
  have hb : s.busy = false := busy_eq_false h (by simp [hm]) (by simp [hm])
  obtain hf | rfl | ⟨habort, -⟩ | ⟨i, r, rest, hr, hop, hbody⟩ := move_of_not_busy h hb hmove
  · exact absurd (hf.symm.trans ht) nofun
  · exact absurd (hm.symm.trans ht) nofun
  · exact absurd (habort.symm.trans hword) (by decide)
  · exact rule_cbody_to_idle (s := { s with cmdq := rest }) hr (hop.symm.trans hm) hbody ht

/-! ### The decompress path -/

/-- The move from s to t ends the segment as SEG_END does (R89). -/
def EndsSegment (s t : State) : Prop := t.fidx = s.fidx + 1 ∧ t.dout = s.dout ++ [⟨.fileEnd, 0#8⟩]

/-- A LIT or DYN code does not end the segment: it stays in DFILE or faults (R86, R88). -/
theorem resolveCode_mode_ne_dbody {c : Code} (e : resolveCode c s = .next t) : t.mode ≠ .dbody := by
  obtain ⟨-, hm, ⟨-, hfirst⟩ | ⟨-, hnext⟩⟩ := resolveCode_next e
  all_goals intro ht
  · obtain ⟨-, rfl⟩ | ⟨x, -, rfl⟩ := resolveFirst_next hfirst
    · cases ht
    · exact absurd (hm.symm.trans ht) nofun
  · obtain ⟨n, -, ⟨-, rfl⟩ | ⟨-, -, rfl⟩ | ⟨fc, y, -, -, -, -, -, rfl⟩⟩ := resolveNext_next hnext
    · cases ht
    · cases ht
    · exact absurd (hm.symm.trans ht) nofun

theorem exec_decodeCode_endsSegment {c : Code} (e : exec (decodeCode c) s = .next t) (ht : t.mode = .dbody) :
    EndsSegment s t := by
  obtain hc | ⟨d, hc⟩ | hc := decodeCode_cases c
  all_goals rw [hc] at e
  · obtain ⟨-, -, -, rfl⟩ := execSent_next e
    exact ⟨rfl, rfl⟩
  · exact absurd ht (resolveCode_mode_ne_dbody e)
  · exact absurd ht (resolveCode_mode_ne_dbody e)

theorem exhaust_endsSegment (ht : (exhaust s).mode = .dbody) : EndsSegment s (exhaust s) := by
  obtain ⟨-, e⟩ | ⟨-, e⟩ := exhaust_cases s
  all_goals rw [e] at ht ⊢
  · exact ⟨rfl, rfl⟩
  · cases ht

/-- BC_READ leaves FIDX and DOUT as they are (R67), so what ends the segment after it ends it from before. -/
theorem EndsSegment.of_bcRead {o : Option Code} {u : State} (hread : bcRead s = (o, u)) (h : EndsSegment u t) :
    EndsSegment s t := by
  obtain ⟨bs, rb, rc, hframe⟩ := bcRead_frame s
  rw [hread] at hframe
  obtain rfl : u = _ := hframe
  exact h

theorem move_dfile_to_dbody (h : Inv s) (hmove : Move s t) (hm : s.mode = .dfile) (ht : t.mode = .dbody) :
    EndsSegment s t := by
  have hb : s.busy = true := h.dfileBusy hm
  cases hmove with
  | uop w port run => exact absurd (h.noUop.symm.trans port) nofun
  | name port busy mode eq => exact absurd (hm.symm.trans mode) nofun
  | emit port busy mode dstate eq =>
    rw [eq, dsEmit_mode] at ht
    exact absurd (hm.symm.trans ht) nofun
  | code port busy mode dstate c u read run => exact (exec_decodeCode_endsSegment run ht).of_bcRead read
  | exhausted port busy mode dstate u read eq =>
    subst eq
    exact (exhaust_endsSegment ht).of_bcRead read
  | wait port busy | command port busy | illegal port busy => exact absurd (hb.symm.trans busy) nofun

/-- Settles O52: inside a segment FIDX is below NFILES, so that counting it up does not wrap. -/
theorem segmentEndsAdvanceTheIndex : Obligations.SegmentEndsAdvanceTheIndex := by
  unfold Obligations.SegmentEndsAdvanceTheIndex
  intro s t h hstep
  have hmove := move_of_step hstep
  have hsucc : s.mode = .cfile ∨ s.mode = .dfile → (s.fidx + 1).toNat = s.fidx.toNat + 1 := by
    intro hsegment
    have hlt := h.segmentNamed hsegment
    have hn := s.nfiles.isLt
    exact toNat_succ (by omega)
  refine ⟨fun hm ht => ?_, fun hm ht => ?_, fun hm ht hword => move_cbody_to_idle h hmove hm ht hword⟩
  · rw [move_cfile_to_cbody h hmove hm ht, hsucc (.inl hm)]
  · obtain ⟨hfidx, hdout⟩ := move_dfile_to_dbody h hmove hm ht
    exact ⟨by rw [hfidx, hsucc (.inr hm)], hdout⟩

end Sys2Proof.Proofs.SegmentEnds

/-! The decoder (43_decoder.md R85 to R93): what the micro-steps of D_FILE do, and how each code resolves in DS_FIRST
and in DS_NEXT. -/

namespace Sys2Proof.Proofs.Decoder

open Sys2Proof.Machine Sys2Proof.Claims Sys2Proof.Proofs.Moves Sys2Proof.Proofs.Invariant
  Sys2Proof.Proofs.Commands Sys2Proof.Proofs.Encoder Sys2Proof.Proofs.Dictionary

variable {s t : State} {d : DState} {r : Code}

/-! ### D_FILE and DS_EMIT -/

/-- Settles O24: the rule tests the count once. -/
theorem dFileAcceptsASegment : Obligations.DFileAcceptsASegment := by
  unfold Obligations.DFileAcceptsASegment
  refine ⟨commandHead_of_ruleOf (i := .dFile) rfl rfl, fun s hready => ?_⟩
  rw [exec_of_ready (i := .dFile) rfl hready]
  exact ⟨fun hfull => if_pos hfull, fun hroom => if_neg (Nat.not_le_of_lt hroom)⟩

/-- With BUSY = 1 the core's move is a micro-step of the running command (R96). -/
theorem fetch_of_busy (hp : s.uopPort = none) (hb : s.busy = true) : fetch s = fetchMicro s := by
  simp only [fetch, hp, hb, if_true]

theorem step_emit (hp : s.uopPort = none) (hdec : Decoding .emit s) : step s = .next (dsEmit s) := by
  obtain ⟨hb, hm, hd⟩ := hdec
  refine step_of_done ?_
  simp only [fetch_of_busy hp hb, fetchMicro, hm, hd]

/-- Settles O26: DS_EMIT puts one DATA event for each byte of the current string. -/
theorem dsEmitWritesTheCurrentString : Obligations.DsEmitWritesTheCurrentString := by
  unfold Obligations.DsEmitWritesTheCurrentString
  exact fun s hp hdec => step_emit hp hdec

/-! ### Reading a code -/

/-- BC_READ leaves everything but AIN and the read BitBuffer as it is (R67). -/
theorem eq_of_bcRead {o : Option Code} (hread : bcRead s = (o, t)) :
    ∃ bs rb rc, t = { s with ain := bs, rbits := rb, rcnt := rc } := by
  obtain ⟨bs, rb, rc, hframe⟩ := bcRead_frame s
  rw [hread] at hframe
  exact ⟨bs, rb, rc, hframe⟩

theorem decoding_of_bcRead {o : Option Code} (hread : bcRead s = (o, t)) (hdec : Decoding d s) : Decoding d t := by
  obtain ⟨bs, rb, rc, rfl⟩ := eq_of_bcRead hread
  exact hdec

theorem exhaust_eq_exhausted (s : State) : exhaust s = exhausted s := by
  have hcond : truncatedSentinel s = true ↔
      s.fidx.toNat + 1 = s.nfiles.toNat ∧ s.rcnt = 8#4 ∧ s.rbits = 0xFF#12 := by
    simp [truncatedSentinel, lastSegment, and_assoc, ← BitVec.toNat_inj]
  obtain ⟨hlast, e⟩ | ⟨hother, e⟩ := exhaust_cases s
  · rw [e, exhausted, if_pos (hcond.mp hlast)]
    rfl
  · rw [e, exhausted, if_neg (mt hcond.mpr hother)]
    rfl

/-- A micro-step that finds too few bits runs EXHAUST (R86, R88, R93). -/
theorem step_exhausted (hp : s.uopPort = none) (hdec : Decoding d s) (hd : d ≠ .emit)
    (hread : bcRead s = (none, t)) : step s = .next (exhausted t) := by
  obtain ⟨hb, hm, rfl⟩ := hdec
  rw [← exhaust_eq_exhausted]
  refine step_of_done ?_
  cases hd' : s.dstate with
  | emit => exact absurd hd' hd
  | first | next => simp only [fetch_of_busy hp hb, fetchMicro, hm, hd', fetchCode, hread]

/-- A micro-step that reads a code runs the code's class (R86, R88). -/
theorem step_code (hp : s.uopPort = none) (hdec : Decoding d s) (hd : d ≠ .emit)
    (hread : bcRead s = (some r, t)) : step s = exec (decodeCode r) t := by
  obtain ⟨-, hcode, -, -⟩ := Encoding.stepRunsDecodedInstruction
  exact hcode s t r d hp hdec hd hread

theorem readingCode_of_decoding (hdec : Decoding d s) (hd : d ≠ .emit) : readingCode s = true := by
  obtain ⟨hb, hm, rfl⟩ := hdec
  exact (readingCode_iff s).mpr ⟨hb, hm, hd⟩

/-- SENT runs SEG_END wherever a code is read (R89, R90). -/
theorem exec_sent (hdec : Decoding d s) (hd : d ≠ .emit) : exec .sent s = .next (segmentEnded s) :=
  if_pos (readingCode_of_decoding hdec hd)

/-- Settles O28: neither micro-state that reads a code matters to SENT. -/
theorem sentEndsTheSegment : Obligations.SentEndsTheSegment := by
  unfold Obligations.SentEndsTheSegment
  exact ⟨rfl, fun s hdec => hdec.elim (exec_sent · nofun) (exec_sent · nofun)⟩

theorem step_sent (hp : s.uopPort = none) (hdec : Decoding d s) (hd : d ≠ .emit)
    (hread : bcRead s = (some 0xFFF#12, t)) : step s = .next (segmentEnded t) := by
  rw [step_code hp hdec hd hread]
  exact exec_sent (decoding_of_bcRead hread hdec) hd

/-- Both classes other than SENT resolve the code itself: LIT d the code of [d] (R91, R92). -/
theorem exec_decodeCode (hr : r ≠ 0xFFF#12) (s : State) : exec (decodeCode r) s = resolveCode r s := by
  have hne : r.toNat ≠ 0xFFF := fun e => hr (BitVec.eq_of_toNat_eq e)
  have hlt := r.isLt
  by_cases hlit : r.toNat < 0x100
  · have hcode : litOperand (r.extractLsb' 0 8) = r := by
      apply BitVec.eq_of_toNat_eq
      rw [litOperand, BitVec.toNat_setWidth_of_le (by decide), BitVec.extractLsb'_toNat]
      omega
    rw [Encoding.decodeCode_lit hlit]
    exact congrArg (resolveCode · s) hcode
  · rw [Encoding.decodeCode_dyn (by omega) (by omega)]
    rfl

theorem step_resolveCode (hp : s.uopPort = none) (hdec : Decoding d s) (hd : d ≠ .emit)
    (hread : bcRead s = (some r, t)) (hr : r ≠ 0xFFF#12) : step s = resolveCode r t := by
  rw [step_code hp hdec hd hread, exec_decodeCode hr]

/-! ### Resolving a code in DS_FIRST -/

theorem resolveCode_first (hdec : Decoding .first s) (r : Code) : resolveCode r s = resolveFirst r s := by
  have hread := readingCode_of_decoding hdec nofun
  obtain ⟨-, -, hd⟩ := hdec
  simp only [resolveCode, hread, if_true, hd]

/-- A code without a string is a miss (R86). -/
theorem resolveFirst_absent (hr : stringOf r.toNat s = none) :
    resolveFirst r s = .next (faulted .decodeMiss 0xB0000000#32 ⟨r, 0#4, true, false⟩ s) := by
  rw [resolveFirst, dictDlookup_eq_stringOf, hr]
  rfl

/-- A code with a string becomes current (R86). -/
theorem resolveFirst_present {x : Bytes} (hr : stringOf r.toNat s = some x) :
    resolveFirst r s = .next { s with curCode := r, curStr := x, dstate := .emit } := by
  rw [resolveFirst, dictDlookup_eq_stringOf, hr]
  rfl

theorem stringOf_eq_none {c : Nat} (hlow : 256 ≤ c) (hc : s.nextCode.toNat ≤ c) : stringOf c s = none := by
  rw [stringOf, if_neg (Nat.not_lt.mpr hlow), if_neg (Nat.not_lt.mpr hc)]

/-- Settles O25, by what BC_READ answers and by the code against NEXT. -/
theorem dsFirstResolvesTheFirstCode : Obligations.DsFirstResolvesTheFirstCode := by
  unfold Obligations.DsFirstResolvesTheFirstCode
  intro s t hp hdec hlow
  refine ⟨step_exhausted hp hdec nofun, step_sent hp hdec nofun, fun r hread hr hmiss => ?_,
    fun r x hread hlt hr hx => ?_⟩
  · have hnext : t.nextCode = s.nextCode := by
      obtain ⟨bs, rb, rc, rfl⟩ := eq_of_bcRead hread
      rfl
    rw [step_resolveCode hp hdec nofun hread hr, resolveCode_first (decoding_of_bcRead hread hdec),
      resolveFirst_absent (stringOf_eq_none (by omega) (by rwa [hnext]))]
  · rw [step_resolveCode hp hdec nofun hread hr, resolveCode_first (decoding_of_bcRead hread hdec),
      resolveFirst_present hx]

/-! ### Resolving a code in DS_NEXT -/

theorem resolveCode_inNext (hdec : Decoding .next s) (r : Code) : resolveCode r s = resolveNext r s := by
  have hread := readingCode_of_decoding hdec nofun
  obtain ⟨-, -, hd⟩ := hdec
  simp only [resolveCode, hread, if_true, hd]

/-- A code above the allocated one is a miss, after the allocation (R88, R92). -/
theorem resolveNext_miss (hr : (allocated s).toNat < r.toNat) :
    resolveNext r s = .next (faulted .decodeMiss 0xB0000000#32 ⟨r, 0#4, true, false⟩
      { s with nextCode := allocated s }) := by
  simp only [resolveNext, dictAlloc_eq_allocated, hr, if_true]
  rfl

/-- A current string that cannot grow is a fault, after the allocation (R88). -/
theorem resolveNext_tooLong {fc : Byte} (hr : r.toNat ≤ (allocated s).toNat)
    (hfc : firstChar r (allocated s) { s with nextCode := allocated s } = some fc)
    (hlong : 3841 ≤ s.curStr.length) :
    resolveNext r s = .next (faulted .entryTooLong 0xB0000000#32 ⟨r, 0#4, true, false⟩
      { s with nextCode := allocated s }) := by
  simp only [resolveNext, dictAlloc_eq_allocated, Nat.not_lt.mpr hr, if_false, hfc, maxEntryLen_eq,
    Nat.lt_succ_of_le hlong, if_true]
  rfl

/-- Otherwise the current string grows by the first byte into a new entry, and only then the code is looked up
(R88). -/
theorem resolveNext_insert {fc : Byte} {x : Bytes} (hlow : 256 ≤ s.nextCode.toNat) (hcur : s.curStr ≠ [])
    (hshort : s.curStr.length ≤ 3840) (hr : r.toNat ≤ (allocated s).toNat)
    (hfc : firstChar r (allocated s) { s with nextCode := allocated s } = some fc)
    (hx : stringOf r.toNat (withEntry (allocated s) (s.curStr ++ [fc]) s) = some x) :
    resolveNext r s = .next
      { withEntry (allocated s) (s.curStr ++ [fc]) s with curCode := r, curStr := x, dstate := .emit } := by
  have hpos : 0 < s.curStr.length := List.length_pos_iff.mpr hcur
  have hgrown : (s.curStr ++ [fc]).length = s.curStr.length + 1 := List.length_append
  have hins : insertable (allocated s) (s.curStr ++ [fc]) { s with nextCode := allocated s } = true :=
    insertable_allocated hlow (by omega) (by omega)
  have hinsert : dictDinsert (allocated s) (s.curStr ++ [fc]) { s with nextCode := allocated s } =
      some (withEntry (allocated s) (s.curStr ++ [fc]) s) := by
    rw [← withInserted_eq_withEntry, dictDinsert, insertEntry_of_insertable hins]
    rfl
  simp only [resolveNext, dictAlloc_eq_allocated, Nat.not_lt.mpr hr, if_false, hfc, maxEntryLen_eq,
    Nat.not_lt.mpr (Nat.succ_le_succ hshort), hinsert, dictDlookup_eq_stringOf, hx]
  rfl

/-- The first byte is that of the code's string below the allocated code, and that of the current string at it: the
KwKwK case (R88, R92). -/
theorem firstChar_eq (r n : Code) (s : State) :
    firstChar r n s = if r.toNat < n.toNat then (stringOf r.toNat s).bind List.head? else s.curStr.head? := by
  rw [firstChar, dictDlookup_eq_stringOf]

theorem firstChar_of_lt {n : Code} {b : Byte} {y : Bytes} (hr : r.toNat < n.toNat)
    (hx : stringOf r.toNat s = some (b :: y)) : firstChar r n s = some b := by
  rw [firstChar_eq, if_pos hr, hx]
  rfl

theorem firstChar_self (n : Code) (s : State) : firstChar n n s = s.curStr.head? := by
  rw [firstChar_eq, if_neg (Nat.lt_irrefl _)]

theorem exists_firstChar {n : Code} (hcur : s.curStr ≠ [])
    (hx : r.toNat < n.toNat → ∃ x, stringOf r.toNat s = some x ∧ x ≠ []) :
    ∃ fc, firstChar r n s = some fc := by
  by_cases hr : r.toNat < n.toNat
  · obtain ⟨x, hx, hne⟩ := hx hr
    obtain ⟨b, y, rfl⟩ := List.exists_cons_of_ne_nil hne
    exact ⟨b, firstChar_of_lt hr hx⟩
  · rw [firstChar_eq, if_neg hr]
    exact ⟨_, List.head?_eq_some_head hcur⟩

/-! ### Strings of codes -/

theorem allocated_bounds (hlow : 256 ≤ s.nextCode.toNat) :
    256 ≤ (allocated s).toNat ∧ (allocated s).toNat ≤ 4094 := by
  obtain ⟨-, hbounds⟩ := dictAlloc_code hlow
  rwa [dictAlloc_eq_allocated] at hbounds

theorem stringOf_literal {c : Nat} (hc : c < 256) (s : State) : stringOf c s = some [BitVec.ofNat 8 c] := if_pos hc

theorem stringOf_dynamic {c : Nat} (hlow : 256 ≤ c) (hc : c < s.nextCode.toNat) :
    stringOf c s = some (memRead c s.entry) := by
  rw [stringOf, if_neg (Nat.not_lt.mpr hlow), if_pos hc]

theorem withEntry_nextCode {n : Code} (hn : n.toNat ≤ 4094) (x : Bytes) (s : State) :
    (withEntry n x s).nextCode.toNat = n.toNat + 1 := by
  rw [← withInserted_eq_withEntry, withInserted_nextCode hn]

/-- The inserted string is the one at the new code. -/
theorem stringOf_withEntry_same {n : Code} (hlow : 256 ≤ n.toNat) (hn : n.toNat ≤ 4094) (hwf : s.entry.wf = true)
    (x : Bytes) : stringOf n.toNat (withEntry n x s) = some x := by
  have hlt : n.toNat < (withEntry n x s).nextCode.toNat := by
    rw [withEntry_nextCode hn]
    exact Nat.lt_succ_self _
  rw [stringOf_dynamic hlow hlt]
  exact congrArg some (memRead_memWrite_same _ _ hwf)

/-- An insertion leaves the strings below the new code as they are. -/
theorem stringOf_withEntry_of_lt {n : Code} {c : Nat} (hn : n.toNat ≤ 4094) (hc : c < n.toNat) (x : Bytes)
    (s : State) : stringOf c (withEntry n x s) = stringOf c { s with nextCode := n } := by
  by_cases hlit : c < 256
  · rw [stringOf_literal hlit, stringOf_literal hlit]
  · have hlt : c < (withEntry n x s).nextCode.toNat := by
      rw [withEntry_nextCode hn]
      omega
    rw [stringOf_dynamic (by omega) hlt, stringOf_dynamic (by omega) hc]
    exact congrArg some (memRead_memWrite_other x (by omega) _)

/-! ### DS_NEXT under the invariant, and the codes by their class -/

/-- The invariant after DICT_ALLOC in DS_NEXT. -/
theorem inv_allocated_of_decoding (h : Inv s) (hdec : Decoding d s) : Inv { s with nextCode := allocated s } := by
  obtain ⟨-, hm, -⟩ := hdec
  have hs : s.sbuf = [] := sbuf_eq_nil h (by simp [hm]) (by simp [hm])
  have hn := dictAlloc_fst s
  rw [dictAlloc_eq_allocated] at hn
  exact inv_allocated hn (by simp [hs]) h

/-- Under the invariant every code below NEXT has a non-empty string (R24, R29, R31). -/
theorem exists_stringOf (h : Inv s) (hr : r.toNat < s.nextCode.toNat) :
    ∃ x, stringOf r.toNat s = some x ∧ x ≠ [] := by
  obtain ⟨-, hx⟩ | ⟨-, -, hx⟩ | ⟨-, hle, -⟩ := dictDlookup_cases r s
  · exact ⟨_, (dictDlookup_eq_stringOf r s).symm.trans hx, (dictDlookup_length h hx).1⟩
  · exact ⟨_, (dictDlookup_eq_stringOf r s).symm.trans hx, (dictDlookup_length h hx).1⟩
  · omega

theorem resolveNext_outcome (h : Inv s) (hdec : Decoding .next s) (r : Code) :
    NextCodeOutcome r s (resolveNext r s) := by
  have hcur : s.curStr ≠ [] := h.curPresent hdec.2.1 (by simp [hdec.2.2])
  refine ⟨resolveNext_miss, fun hr hlong => ?_, fun fc y hr hshort hfc hy => ?_⟩
  · have hinv := inv_allocated_of_decoding h hdec
    obtain ⟨fc, hfc⟩ := exists_firstChar (r := r) (n := allocated s) (s := { s with nextCode := allocated s })
      hcur (exists_stringOf hinv)
    exact resolveNext_tooLong hr hfc (Nat.le_of_lt_succ hlong)
  · exact resolveNext_insert h.nextLow hcur (Nat.le_of_succ_le_succ hshort) hr ((firstChar_eq ..).trans hfc) hy

/-- Settles O27: the state BC_READ leaves has the invariant, and DS_NEXT resolves the code there. -/
theorem dsNextGrowsTheDictionary : Obligations.DsNextGrowsTheDictionary := by
  unfold Obligations.DsNextGrowsTheDictionary
  intro s t h hdec
  refine ⟨step_exhausted h.noUop hdec nofun, step_sent h.noUop hdec nofun, fun r hread hr => ?_⟩
  have hdec' := decoding_of_bcRead hread hdec
  rw [step_resolveCode h.noUop hdec nofun hread hr, resolveCode_inNext hdec']
  exact resolveNext_outcome (inv_of_bcRead hread h).1 hdec' r

theorem exec_lit (d : Byte) (s : State) : exec (.lit d) s = resolveCode (0x0#4 ++ d) s := by
  rw [← literalCode_eq_append]
  rfl

theorem stringOf_lit (d : Byte) (s : State) : stringOf (0x0#4 ++ d : Code).toNat s = some [d] := by
  rw [← literalCode_eq_append, stringOf_literalCode]

theorem lit_toNat_lt (d : Byte) : (0x0#4 ++ d : Code).toNat < 256 := by
  rw [ReadWindow.append_toNat, BitVec.toNat_ofNat, Nat.zero_mod, Nat.zero_mul, Nat.zero_add]
  exact d.isLt

/-- Settles O29: a literal code is below every allocated code, and its first byte is its byte. -/
theorem litResolvesToItsByte : Obligations.LitResolvesToItsByte := by
  unfold Obligations.LitResolvesToItsByte
  refine fun s d => ⟨fun hdec => ?_, fun hdec hcur hlow => ?_⟩
  · rw [exec_lit, resolveCode_first hdec, resolveFirst_present (stringOf_lit d s)]
  · have hlit := lit_toNat_lt d
    obtain ⟨hn, -⟩ := allocated_bounds hlow
    have hfc := firstChar_of_lt (n := allocated s) (by omega) (stringOf_lit d { s with nextCode := allocated s })
    rw [exec_lit, resolveCode_inNext hdec]
    exact ⟨fun hshort => resolveNext_insert hlow hcur hshort (by omega) hfc (stringOf_lit d _),
      fun hlong => resolveNext_tooLong (by omega) hfc hlong⟩

/-- Settles O30, by the code against the allocated one. -/
theorem dynResolvesByPosition : Obligations.DynResolvesByPosition := by
  unfold Obligations.DynResolvesByPosition
  intro s c hdyn _ hwf
  have hexec : exec (.dyn c) s = resolveCode c s := rfl
  refine ⟨fun hdec hempty => ?_, fun hdec hcur hlow => ?_⟩
  · have habsent : stringOf c.toNat s = none := stringOf_eq_none hdyn (by rwa [hempty])
    rw [hexec, resolveCode_first hdec, resolveFirst_absent habsent]
  · obtain ⟨hnlow, hnhigh⟩ := allocated_bounds hlow
    have hstored : c.toNat < (allocated s).toNat →
        stringOf c.toNat { s with nextCode := allocated s } = some (memRead c.toNat s.entry) :=
      stringOf_dynamic (s := { s with nextCode := allocated s }) hdyn
    rw [hexec, resolveCode_inNext hdec]
    refine ⟨fun fc y hshort hlt hread => ?_, fun fc y hshort hc hread => ?_, fun hlong hle hread => ?_,
      resolveNext_miss⟩
    · have hx := hstored hlt
      rw [hread] at hx
      exact resolveNext_insert hlow hcur hshort (Nat.le_of_lt hlt) (firstChar_of_lt hlt hx)
        ((stringOf_withEntry_of_lt hnhigh hlt _ s).trans hx)
    · subst hc
      have hfc : firstChar (allocated s) (allocated s) { s with nextCode := allocated s } = some fc := by
        rw [firstChar_self, hread]
        rfl
      exact resolveNext_insert hlow hcur hshort le_rfl hfc (stringOf_withEntry_same hnlow hnhigh hwf _)
    · obtain ⟨fc, hfc⟩ := exists_firstChar (r := c) (n := allocated s) (s := { s with nextCode := allocated s })
        hcur fun hlt => ⟨_, hstored hlt, hread hlt⟩
      exact resolveNext_tooLong hle hfc hlong

end Sys2Proof.Proofs.Decoder

/-! Runs of the core on a program of host commands (44_framer.md R96), the invariant along them, and the header of an
archive as either path runs through it (R98 to R101, R104, R105). -/

namespace Sys2Proof.Proofs.Runs

open Sys2Proof.Machine Sys2Proof.Proofs.Moves Sys2Proof.Proofs.Invariant Sys2Proof.Proofs.Commands

variable {s t : State} {m : Mode} {i : Instr} {is : List Instr} {r : Rule}

/-- The core gets from s to t in some number of steps. -/
abbrev Reaches : State → State → Prop := Relation.ReflTransGen fun s t => step s = .next t

theorem reaches_of_step (h : step s = .next t) : Reaches s t := .single h

theorem run_succ {M : Host.Core} {s t : M.State} (h : M.step s = .next t) (k : Nat) :
    M.run (k + 1) s = M.run k t := by
  rw [Host.Core.run, h]

theorem exists_run (h : Reaches s t) : ∃ k, Host.Core.run Sys2Proof.core k s = .next t := by
  induction h using Relation.ReflTransGen.head_induction_on with
  | refl => exact ⟨0, rfl⟩
  | head hstep _ ih =>
    obtain ⟨k, hk⟩ := ih
    exact ⟨k + 1, (run_succ (M := Sys2Proof.core) hstep k).trans hk⟩

theorem inv_of_reaches (h : Inv s) (hr : Reaches s t) : Inv t := by
  induction hr with
  | refl => exact h
  | tail _ hstep ih => exact stepKeepsTheInvariant _ _ ih hstep

/-- Between commands in mode m, with the words of a program on the command port. -/
structure Poised (m : Mode) (is : List Instr) (s : State) : Prop where
  inv : Inv s
  ready : Ready m s
  program : s.cmdq = programWords is

theorem programWords_cons (hr : ruleOf i = some r) (is : List Instr) :
    programWords (i :: is) = cmdWord r.op r.imm :: programWords is := by
  rw [programWords, List.filterMap_cons, encode_of_ruleOf hr]
  rfl

/-- A step of a program runs its first command. -/
theorem Poised.step_exec (hr : ruleOf i = some r) (h : Poised m (i :: is) s) :
    step s = exec i { s with cmdq := programWords is } := by
  obtain ⟨-, -, hcommand, -⟩ := Encoding.stepRunsDecodedInstruction
  exact hcommand s _ _ i h.inv.noUop h.ready.1 (h.program.trans (programWords_cons hr is)) (decodeCmd_of_ruleOf hr)

/-- Where the mode admits that command, the step runs its rule. -/
theorem Poised.reaches (hr : ruleOf i = some r) (h : Poised (modeOfOp r.op) (i :: is) s)
    (e : r.body { s with cmdq := programWords is } = .next t) : Reaches s t ∧ Inv t := by
  have hbody := exec_of_ready (s := { s with cmdq := programWords is }) hr h.ready
  have hreach : Reaches s t := reaches_of_step ((h.step_exec hr).trans (hbody.trans e))
  exact ⟨hreach, inv_of_reaches h.inv hreach⟩

theorem countFull_eq_false (h : s.nfiles.toNat + 1 < 2 ^ 32) : countFull s = false := by
  rw [countFull, decide_eq_false_iff_not, countWidth_eq]
  omega

/-! ### The header of a compress operation -/

/-- The bytes of a name go to AOUT, and leave NAME_OPEN if there are any (R99). -/
theorem reaches_nameBytes {n : Bytes} (hn : lineFeed ∉ n) (h : Poised .chdr (n.map Instr.cNameb ++ is) s) :
    ∃ t, Reaches s t ∧ Poised .chdr is t ∧ t.aout = s.aout ++ n ∧
      t.nameOpen = (s.nameOpen || !n.isEmpty) ∧ t.nfiles = s.nfiles ∧ t.wcnt = s.wcnt := by
  induction n generalizing s with
  | nil => exact ⟨s, .refl, h, by simp, by simp, rfl, rfl⟩
  | cons b n ih =>
    obtain ⟨hb, hn⟩ := not_or.mp (mt List.mem_cons.mpr hn)
    obtain ⟨hstep, hinv⟩ := h.reaches (i := .cNameb b) rfl (if_neg (Ne.symm hb))
    obtain ⟨t, hreach, ht, haout, hopen, hnfiles, hwcnt⟩ := ih hn ⟨hinv, h.ready, rfl⟩
    exact ⟨t, hstep.trans hreach, ht, by simp [haout], by simp [hopen], hnfiles, hwcnt⟩

theorem validName_iff (n : Bytes) : validName n = true ↔ n ≠ [] ∧ lineFeed ∉ n := by
  simp [validName]

/-- NAME writes one line of the header (R63, R99, R100). -/
theorem reaches_name {n : Bytes} (hn : validName n = true) (hroom : s.nfiles.toNat + 1 < 2 ^ 32)
    (h : Poised .chdr (expandName n ++ is) s) :
    ∃ t, Reaches s t ∧ Poised .chdr is t ∧ t.aout = s.aout ++ (n ++ [lineFeed]) ∧ t.nameOpen = false ∧
      t.nfiles.toNat = s.nfiles.toNat + 1 ∧ t.wcnt = s.wcnt := by
  obtain ⟨hne, hlf⟩ := (validName_iff n).mp hn
  rw [expandName, List.append_assoc] at h
  obtain ⟨u, hreach, hu, haout, hopen, hnfiles, hwcnt⟩ := reaches_nameBytes hlf h
  have hopen' : u.nameOpen ≠ false := by simp [hopen, hne]
  have hfull : countFull u ≠ true := by simp [countFull_eq_false (s := u) (by rwa [hnfiles])]
  obtain ⟨hstep, hinv⟩ := hu.reaches (i := .cNameend) rfl ((if_neg hopen').trans (if_neg hfull))
  refine ⟨_, hreach.trans hstep, ⟨hinv, hu.ready, rfl⟩, ?_, rfl, ?_, hwcnt⟩
  · exact (congrArg (· ++ [lineFeed]) haout).trans (List.append_assoc ..)
  · exact (toNat_succ (n := u.nfiles) (by rw [hnfiles]; omega)).trans (by rw [hnfiles])

theorem reaches_names {ns : List Bytes} (hns : ∀ n ∈ ns, validName n = true)
    (hroom : s.nfiles.toNat + ns.length < 2 ^ 32) (hopen : s.nameOpen = false)
    (h : Poised .chdr (ns.flatMap expandName ++ is) s) :
    ∃ t, Reaches s t ∧ Poised .chdr is t ∧ t.aout = s.aout ++ ns.flatMap (fun n => n ++ [lineFeed]) ∧
      t.nameOpen = false ∧ t.nfiles.toNat = s.nfiles.toNat + ns.length ∧ t.wcnt = s.wcnt := by
  induction ns generalizing s with
  | nil => exact ⟨s, .refl, h, (List.append_nil _).symm, hopen, rfl, rfl⟩
  | cons n ns ih =>
    obtain ⟨hn, hns⟩ := List.forall_mem_cons.mp hns
    rw [List.length_cons] at hroom
    rw [List.flatMap_cons, List.append_assoc] at h
    obtain ⟨u, hreach, hu, haout, hopen', hnfiles, hwcnt⟩ := reaches_name hn (by omega) h
    obtain ⟨t, hreach', ht, haout', hclosed, hnfiles', hwcnt'⟩ := ih hns (by omega) hopen' hu
    refine ⟨t, hreach.trans hreach', ht, ?_, hclosed, ?_, hwcnt'.trans hwcnt⟩
    · rw [haout', haout, List.append_assoc, List.flatMap_cons]
    · rw [hnfiles', hnfiles, List.length_cons]
      omega

/-- C_START, the names and C_HDREND write the header, and leave the body byte-aligned (R98 to R101). -/
theorem reaches_header {ns : List Bytes} (hne : ns ≠ []) (hns : ∀ n ∈ ns, validName n = true)
    (hlen : ns.length < 2 ^ 32) (h : Poised .idle (.cStart :: (ns.flatMap expandName ++ Instr.cHdrend :: is)) s) :
    ∃ t, Reaches s t ∧ Poised .cbody is t ∧ t.aout = s.aout ++ headerBytes ns ∧ t.wcnt = 0#3 ∧
      t.fidx.toNat = 0 ∧ t.nfiles.toNat = ns.length := by
  obtain ⟨hstart, hinv⟩ := h.reaches (i := .cStart) rfl rfl
  have hopened : Poised .chdr (ns.flatMap expandName ++ Instr.cHdrend :: is) _ := ⟨hinv, ⟨h.ready.1, rfl⟩, rfl⟩
  obtain ⟨u, hreach, hu, haout, hopen, hnfiles, hwcnt⟩ :=
    reaches_names (ns := ns) hns (by simpa using hlen) rfl hopened
  have hnfiles' : u.nfiles.toNat = ns.length := hnfiles.trans (Nat.zero_add _)
  have hcount : u.nfiles ≠ 0#32 := by
    intro hzero
    rw [hzero] at hnfiles'
    exact hne (List.length_eq_zero_iff.mp hnfiles'.symm)
  obtain ⟨hend, hinv'⟩ := hu.reaches (i := .cHdrend) rfl ((if_neg (by simp [hopen])).trans (if_neg hcount))
  refine ⟨_, (hstart.trans hreach).trans hend, ⟨hinv', ⟨hu.ready.1, rfl⟩, rfl⟩, ?_, hwcnt, rfl, hnfiles'⟩
  exact (congrArg (· ++ [lineFeed]) haout).trans (List.append_assoc ..)

/-! ### The header of a decompress operation -/

theorem step_name (hp : s.uopPort = none) (hb : s.busy = true) (hm : s.mode = .dhdr) :
    step s = .next (dnStep s) := by
  refine step_of_done ?_
  simp only [Decoder.fetch_of_busy hp hb, fetchMicro, hm]

theorem step_nameByte {b : Byte} {rest : Bytes} (hp : s.uopPort = none) (hb : s.busy = true) (hm : s.mode = .dhdr)
    (hain : s.ain = b :: rest) (hne : b ≠ lineFeed) :
    step s = .next { s with ain := rest, dout := s.dout ++ [⟨.nameb, b⟩], lineOpen := true } := by
  rw [step_name hp hb hm]
  obtain ⟨-, e⟩ | ⟨hlf, -⟩ | ⟨hlf, -⟩ | ⟨hlf, -⟩ | ⟨hlf, -⟩ := dnStep_cons hain
  · exact congrArg _ e
  all_goals exact absurd hlf hne

theorem step_nameEnd {rest : Bytes} (hp : s.uopPort = none) (hb : s.busy = true) (hm : s.mode = .dhdr)
    (hain : s.ain = lineFeed :: rest) (hopen : s.lineOpen = true) (hroom : s.nfiles.toNat + 1 < 2 ^ 32) :
    step s = .next { s with
      ain := rest, dout := s.dout ++ [⟨.nameEnd, 0⟩], nfiles := s.nfiles + 1, lineOpen := false, busy := false } := by
  rw [step_name hp hb hm]
  obtain ⟨hne, -⟩ | ⟨-, -, hfull, -⟩ | ⟨-, -, -, e⟩ | ⟨-, hclosed, -⟩ | ⟨-, hclosed, -⟩ := dnStep_cons hain
  · exact absurd rfl hne
  · exact absurd hfull (by simp [countFull_eq_false hroom])
  · exact congrArg _ e
  all_goals exact absurd hopen hclosed

theorem step_headerEnd {rest : Bytes} (hp : s.uopPort = none) (hb : s.busy = true) (hm : s.mode = .dhdr)
    (hain : s.ain = lineFeed :: rest) (hclosed : s.lineOpen = false) (hcount : s.nfiles ≠ 0#32) :
    step s = .next { s with
      ain := rest, dout := s.dout ++ [⟨.hdrEnd, 0⟩], fidx := 0#32, busy := false, mode := .dbody } := by
  rw [step_name hp hb hm]
  obtain ⟨hne, -⟩ | ⟨-, hopen, -⟩ | ⟨-, hopen, -⟩ | ⟨-, -, hzero, -⟩ | ⟨-, -, -, e⟩ := dnStep_cons hain
  · exact absurd rfl hne
  · exact absurd (hopen.symm.trans hclosed) nofun
  · exact absurd (hopen.symm.trans hclosed) nofun
  · exact absurd hzero hcount
  · exact congrArg _ e

/-- The micro-steps of D_NAME take the bytes of a name off AIN (R105). -/
theorem reaches_nameLine {n rest : Bytes} (hn : lineFeed ∉ n) (hp : s.uopPort = none) (hb : s.busy = true)
    (hm : s.mode = .dhdr) (hain : s.ain = n ++ rest) :
    Reaches s { s with
      ain := rest, dout := s.dout ++ n.map (fun b => ⟨.nameb, b⟩), lineOpen := s.lineOpen || !n.isEmpty } := by
  induction n generalizing s with
  | nil =>
    obtain rfl : s.ain = rest := hain
    simp [Relation.ReflTransGen.refl]
  | cons b n ih =>
    obtain ⟨hne, hn⟩ := not_or.mp (mt List.mem_cons.mpr hn)
    have hstep := step_nameByte hp hb hm hain (Ne.symm hne)
    have hreach := ih (s := { s with ain := n ++ rest, dout := s.dout ++ [⟨.nameb, b⟩], lineOpen := true })
      hn hp hb hm rfl
    simpa using (reaches_of_step hstep).trans hreach

/-- D_NAME on a name's line (R105). -/
theorem reaches_dName {n rest : Bytes} (hn : validName n = true) (hroom : s.nfiles.toNat + 1 < 2 ^ 32)
    (hain : s.ain = n ++ lineFeed :: rest) (h : Poised .dhdr (.dName :: is) s) :
    ∃ t, Reaches s t ∧ Poised .dhdr is t ∧ t.ain = rest ∧ t.dout = s.dout ++ nameEvents n ∧
      t.nfiles.toNat = s.nfiles.toNat + 1 ∧ t.rcnt = s.rcnt := by
  obtain ⟨hne, hlf⟩ := (validName_iff n).mp hn
  have haccept : Reaches s { s with cmdq := programWords is, busy := true } := (h.reaches (i := .dName) rfl rfl).1
  have hline := reaches_nameLine (s := { s with cmdq := programWords is, busy := true })
    hlf h.inv.noUop rfl h.ready.2 hain
  have hopen : (s.lineOpen || !n.isEmpty) = true := by simp [hne]
  have hreach := (haccept.trans hline).trans
    (reaches_of_step (step_nameEnd h.inv.noUop rfl h.ready.2 rfl hopen hroom))
  refine ⟨_, hreach, ⟨inv_of_reaches h.inv hreach, ⟨rfl, h.ready.2⟩, rfl⟩, rfl, ?_,
    toNat_succ (n := s.nfiles) (by omega), rfl⟩
  exact List.append_assoc ..

/-- D_NAME on the blank line (R105). -/
theorem reaches_dHeaderEnd {rest : Bytes} (hcount : s.nfiles ≠ 0#32) (hain : s.ain = lineFeed :: rest)
    (h : Poised .dhdr (.dName :: is) s) :
    ∃ t, Reaches s t ∧ Poised .dbody is t ∧ t.ain = rest ∧ t.dout = s.dout ++ [⟨.hdrEnd, 0⟩] ∧
      t.fidx.toNat = 0 ∧ t.nfiles = s.nfiles ∧ t.rcnt = s.rcnt := by
  have haccept : Reaches s { s with cmdq := programWords is, busy := true } := (h.reaches (i := .dName) rfl rfl).1
  have hclosed : s.lineOpen = false :=
    lineOpen_eq_false h.inv (fun _ => h.ready.1) (by simp [h.ready.2])
  have hreach := haccept.trans (reaches_of_step (step_headerEnd h.inv.noUop rfl h.ready.2 hain hclosed hcount))
  exact ⟨_, hreach, ⟨inv_of_reaches h.inv hreach, ⟨rfl, rfl⟩, rfl⟩, rfl, rfl, rfl, rfl, rfl⟩

theorem reaches_dNames {ns : List Bytes} {rest : Bytes} (hns : ∀ n ∈ ns, validName n = true)
    (hroom : s.nfiles.toNat + ns.length < 2 ^ 32) (hain : s.ain = ns.flatMap (fun n => n ++ [lineFeed]) ++ rest)
    (h : Poised .dhdr (List.replicate ns.length Instr.dName ++ is) s) :
    ∃ t, Reaches s t ∧ Poised .dhdr is t ∧ t.ain = rest ∧ t.dout = s.dout ++ ns.flatMap nameEvents ∧
      t.nfiles.toNat = s.nfiles.toNat + ns.length ∧ t.rcnt = s.rcnt := by
  induction ns generalizing s with
  | nil => exact ⟨s, .refl, h, hain, (List.append_nil _).symm, rfl, rfl⟩
  | cons n ns ih =>
    obtain ⟨hn, hns⟩ := List.forall_mem_cons.mp hns
    rw [List.length_cons] at hroom
    have hline : s.ain = n ++ lineFeed :: (ns.flatMap (fun n => n ++ [lineFeed]) ++ rest) := by simp [hain]
    obtain ⟨u, hreach, hu, hain', hdout, hnfiles, hrcnt⟩ := reaches_dName hn (by omega) hline h
    obtain ⟨t, hreach', ht, hrest, hdout', hnfiles', hrcnt'⟩ := ih hns (by omega) hain' hu
    refine ⟨t, hreach.trans hreach', ht, hrest, ?_, ?_, hrcnt'.trans hrcnt⟩
    · rw [hdout', hdout, List.append_assoc, List.flatMap_cons]
    · rw [hnfiles', hnfiles, List.length_cons]
      omega

/-- D_START and the D_NAMEs take the header off AIN and put its events on DOUT (R104, R105, R107). -/
theorem reaches_dHeader {ns : List Bytes} {body : Bytes} (hne : ns ≠ []) (hns : ∀ n ∈ ns, validName n = true)
    (hlen : ns.length < 2 ^ 32) (hain : s.ain = headerBytes ns ++ body)
    (h : Poised .idle (.dStart :: (List.replicate ns.length Instr.dName ++ Instr.dName :: is)) s) :
    ∃ t, Reaches s t ∧ Poised .dbody is t ∧ t.ain = body ∧
      t.dout = s.dout ++ ns.flatMap nameEvents ++ [⟨.hdrEnd, 0⟩] ∧ t.fidx.toNat = 0 ∧
      t.nfiles.toNat = ns.length ∧ t.rcnt = 0#4 := by
  obtain ⟨hstart, hinv⟩ := h.reaches (i := .dStart) rfl rfl
  have hopened : Poised .dhdr (List.replicate ns.length Instr.dName ++ Instr.dName :: is) _ :=
    ⟨hinv, ⟨h.ready.1, rfl⟩, rfl⟩
  obtain ⟨u, hreach, hu, hain', hdout, hnfiles, hrcnt⟩ :=
    reaches_dNames (ns := ns) (rest := lineFeed :: body) hns (by simpa using hlen)
      (by simpa [headerBytes] using hain) hopened
  have hnfiles' : u.nfiles.toNat = ns.length := hnfiles.trans (Nat.zero_add _)
  have hcount : u.nfiles ≠ 0#32 := by
    intro hzero
    rw [hzero] at hnfiles'
    exact hne (List.length_eq_zero_iff.mp hnfiles'.symm)
  obtain ⟨t, hreach', ht, hbody, hdout', hfidx, hsame, hrcnt'⟩ := reaches_dHeaderEnd hcount hain' hu
  refine ⟨t, (hstart.trans hreach).trans hreach', ht, hbody, ?_, hfidx, by rw [hsame, hnfiles'], hrcnt'.trans hrcnt⟩
  rw [hdout', hdout]
  rfl

end Sys2Proof.Proofs.Runs

/-! The round trip (43_decoder.md R95): the decoder, one code behind the encoder, rebuilds the dictionary that each
code was looked up in, and so answers each code with the encoder's match. -/

namespace Sys2Proof.Proofs.RoundTrip

open Sys2Proof.Machine Sys2Proof.Claims Sys2Proof.Proofs.Moves Sys2Proof.Proofs.Invariant
  Sys2Proof.Proofs.Commands Sys2Proof.Proofs.Encoder Sys2Proof.Proofs.BitCodec Sys2Proof.Proofs.Decoder
  Sys2Proof.Proofs.Runs

variable {s t u v : State} {d : DState} {k : Code} {cs ds ks : List Code} {is : List Instr}

/-! ### What the encoder has written and what the decoder has still to read -/

/-- From s to t the codes cs were written: their bits are on AOUT and in the write BitBuffer (R64). -/
def Wrote (cs : List Code) (s t : State) : Prop :=
  ∃ out, t.aout = s.aout ++ out ∧
    out.flatMap byteBits ++ msbBits t.wcnt.toNat t.wbits.toNat =
      msbBits s.wcnt.toNat s.wbits.toNat ++ cs.flatMap codeBits

theorem wrote_nil (haout : t.aout = s.aout) (hwbits : t.wbits = s.wbits) (hwcnt : t.wcnt = s.wcnt) :
    Wrote [] s t :=
  ⟨[], haout.trans (List.append_nil _).symm, by simp [hwbits, hwcnt]⟩

theorem wrote_bcWrite (k : Code) (s : State) : Wrote [k] s (bcWrite k s) := by
  obtain ⟨out, hwrite, hbits⟩ := bcWrite_bits k s
  exact ⟨out, congrArg State.aout hwrite, by rw [hbits, List.flatMap_singleton]⟩

theorem Wrote.trans (h : Wrote cs s t) (h' : Wrote ds t u) : Wrote (cs ++ ds) s u := by
  obtain ⟨out, haout, hbits⟩ := h
  obtain ⟨out', haout', hbits'⟩ := h'
  refine ⟨out ++ out', by rw [haout', haout, List.append_assoc], ?_⟩
  rw [List.flatMap_append, List.append_assoc, hbits', ← List.append_assoc, hbits, List.append_assoc,
    List.flatMap_append]

/-- The input holds the codes cs, or all of them but the low bits of a final sentinel, which an odd body drops
(R53). -/
def Remaining (cs : List Code) (s : State) : Prop :=
  cs = [] ∨ inputBits s = cs.flatMap codeBits ∨
    ∃ ds, cs = ds ++ [0xFFF#12] ∧ inputBits s = ds.flatMap codeBits ++ byteBits 0xFF#8

/-- Under the invariant at most 8 bits are buffered (R22). -/
theorem rcnt_le (h : Inv s) : s.rcnt.toNat ≤ 11 := by
  obtain ⟨e | e | e, -⟩ := h.rbuf
  all_goals rw [e]; decide

/-- A code that is not the last is read whole. -/
theorem bcRead_remaining (h : Inv s) (hne : cs ≠ []) (hrem : Remaining (k :: cs) s) :
    ∃ t, bcRead s = (some k, t) ∧ Remaining cs t := by
  obtain hnil | hbits | ⟨ds, hcs, hbits⟩ := hrem
  · cases hnil
  · obtain ⟨hcode, hrest⟩ := bcRead_of_inputBits (rcnt_le h) hbits
    exact ⟨_, Prod.ext hcode rfl, .inr (.inl hrest)⟩
  · cases ds with
    | nil => exact absurd (List.cons.inj hcs).2 hne
    | cons c ds =>
      obtain ⟨rfl, rfl⟩ := List.cons.inj hcs
      rw [List.flatMap_cons, List.append_assoc] at hbits
      obtain ⟨hcode, hrest⟩ := bcRead_of_inputBits (rcnt_le h) hbits
      exact ⟨_, Prod.ext hcode rfl, .inr (.inr ⟨ds, rfl, hrest⟩)⟩

/-- A final sentinel is read whole, or its top byte stays in the read BitBuffer (R67, R69). -/
theorem bcRead_lastSentinel (h : Inv s) (hrem : Remaining [0xFFF#12] s) :
    ∃ t, bcRead s = (some 0xFFF#12, t) ∨ (bcRead s = (none, t) ∧ t.rcnt = 8#4 ∧ t.rbits = 0xFF#12) := by
  obtain hnil | hbits | ⟨ds, hcs, hbits⟩ := hrem
  · cases hnil
  · obtain ⟨hcode, -⟩ := bcRead_of_inputBits (rcnt_le h) hbits
    exact ⟨_, .inl (Prod.ext hcode rfl)⟩
  · obtain rfl : ds = [] := by simpa using congrArg List.length hcs
    obtain ⟨hnone, hrcnt, -, hrbits⟩ := bcRead_of_byte h.rbuf hbits
    exact ⟨_, .inr ⟨Prod.ext hnone rfl, hrcnt, BitVec.eq_of_toNat_eq hrbits⟩⟩

/-! ### The two dictionaries -/

/-- The same codes are present, with the same strings. -/
def SameEpoch (s u : State) : Prop :=
  s.nextCode = u.nextCode ∧ ∀ c, 256 ≤ c → c < s.nextCode.toNat → memRead c s.entry = memRead c u.entry

theorem SameEpoch.trans (h : SameEpoch s t) (h' : SameEpoch t u) : SameEpoch s u := by
  obtain ⟨hnext, hread⟩ := h
  obtain ⟨hnext', hread'⟩ := h'
  exact ⟨hnext.trans hnext', fun c hlow hc => (hread c hlow hc).trans (hread' c hlow (hnext ▸ hc))⟩

theorem SameEpoch.stringOf_eq (h : SameEpoch s u) (c : Nat) : stringOf c s = stringOf c u := by
  obtain ⟨hnext, hread⟩ := h
  by_cases hlit : c < 256
  · rw [stringOf_literal hlit, stringOf_literal hlit]
  · by_cases hc : c < s.nextCode.toNat
    · rw [stringOf_dynamic (by omega) hc, stringOf_dynamic (by omega) (hnext ▸ hc), hread c (by omega) hc]
    · rw [stringOf_eq_none (by omega) (by omega), stringOf_eq_none (by omega) (by rw [← hnext]; omega)]

theorem SameEpoch.allocated_eq (h : SameEpoch s u) : allocated s = allocated u := by
  rw [allocated, h.1, allocated]

theorem allocated_le (hlow : 256 ≤ s.nextCode.toNat) : (allocated s).toNat ≤ s.nextCode.toNat := by
  rw [allocated]
  split
  · exact hlow
  · exact le_rfl

/-- The same insertion, after the same allocation, keeps the dictionaries the same. -/
theorem SameEpoch.withEntry (h : SameEpoch s u) (hs : Inv s) (hu : u.entry.wf = true) (x : Bytes) :
    SameEpoch (withEntry (allocated s) x s) (withEntry (allocated u) x u) := by
  have hn := (allocated_bounds hs.nextLow).2
  have hle := allocated_le hs.nextLow
  rw [← h.allocated_eq]
  refine ⟨rfl, fun c hlow hc => ?_⟩
  rw [withEntry_nextCode hn] at hc
  have hsame : memRead c (memWrite (allocated s).toNat x s.entry) =
      memRead c (memWrite (allocated s).toNat x u.entry) := by
    by_cases hcn : c = (allocated s).toNat
    · rw [hcn, memRead_memWrite_same _ _ hs.memWf, memRead_memWrite_same _ _ hu]
    · rw [memRead_memWrite_other _ hcn, memRead_memWrite_other _ hcn, h.2 c hlow (by omega)]
  exact hsame

/-! ### One code -/

/-- The decoder u is about to read the code of the encoder's match in s. In DS_FIRST both epochs are empty; in
DS_NEXT the encoder has the one entry more that the decoder makes of its current string and the match's first
byte. -/
inductive Lags (s u : State) : Prop where
  | first (decoding : Decoding .first u) (same : SameEpoch s u)
  | next (decoding : Decoding .next u) (b : Byte) (head : s.sbuf.head? = some b) (short : u.curStr.length ≤ 3840)
      (same : SameEpoch s (withEntry (allocated u) (u.curStr ++ [b]) u))

theorem Lags.decoding (h : Lags s u) : ∃ d, Decoding d u ∧ d ≠ .emit := by
  cases h with
  | first decoding => exact ⟨_, decoding, nofun⟩
  | next decoding => exact ⟨_, decoding, nofun⟩

/-- The decoder u has read the code of the encoder's match in s. -/
structure Caught (s u : State) : Prop where
  decoding : Decoding .next u
  curStr : u.curStr = s.sbuf
  same : SameEpoch s u

/-- A code that has a string is not the sentinel: NEXT is at most 4095 (R23, R29). -/
theorem ne_sentinel_of_stringOf {x : Bytes} (hk : stringOf k.toNat s = some x) : k ≠ 0xFFF#12 := by
  rintro rfl
  have hnext := code_lt s.nextCode
  have hnone : stringOf (0xFFF#12).toNat s = none :=
    stringOf_eq_none (by decide) (by rw [BitVec.toNat_ofNat]; omega)
  exact absurd (hnone.symm.trans hk) nofun

/-- A code with a string after an insertion is at most the inserted code. -/
theorem le_of_stringOf_withEntry {n : Code} {x y : Bytes} (hlow : 256 ≤ n.toNat) (hn : n.toNat ≤ 4094)
    (hk : stringOf k.toNat (withEntry n x s) = some y) : k.toNat ≤ n.toNat := by
  by_contra hgt
  have hnone : stringOf k.toNat (withEntry n x s) = none :=
    stringOf_eq_none (by omega) (by rw [withEntry_nextCode hn]; omega)
  exact absurd (hnone.symm.trans hk) nofun

/-- The first byte DS_NEXT takes is the first byte of the string the code has after the insertion: for the inserted
code itself that is the first byte of the current string (R88, R92). -/
theorem firstChar_of_withEntry {b fc : Byte} {y : Bytes} (h : Inv u) (hcur : u.curStr ≠ [])
    (hk : stringOf k.toNat (withEntry (allocated u) (u.curStr ++ [b]) u) = some (fc :: y)) :
    firstChar k (allocated u) { u with nextCode := allocated u } = some fc := by
  obtain ⟨hlow, hn⟩ := allocated_bounds h.nextLow
  by_cases hlt : k.toNat < (allocated u).toNat
  · exact firstChar_of_lt hlt ((stringOf_withEntry_of_lt hn hlt _ u).symm.trans hk)
  · have hle := le_of_stringOf_withEntry hlow hn hk
    obtain rfl : k = allocated u := BitVec.eq_of_toNat_eq (by omega)
    rw [stringOf_withEntry_same hlow hn h.memWf] at hk
    obtain ⟨c, x, hx⟩ := List.exists_cons_of_ne_nil hcur
    rw [hx] at hk
    obtain ⟨rfl, -⟩ := List.cons.inj (Option.some.inj hk)
    rw [firstChar_self]
    exact congrArg List.head? hx

/-- The code of the match resolves to the match, and the dictionaries are the same after it. -/
theorem resolveCode_of_lags (h : Inv u) (hlag : Lags s u) (hs : s.sbuf ≠ [])
    (hk : stringOf k.toNat s = some s.sbuf) :
    ∃ nc en, resolveCode k u =
        .next { u with nextCode := nc, entry := en, curCode := k, curStr := s.sbuf, dstate := .emit } ∧
      SameEpoch s { u with nextCode := nc, entry := en } := by
  cases hlag with
  | first decoding same =>
    rw [same.stringOf_eq] at hk
    exact ⟨u.nextCode, u.entry, by rw [resolveCode_first decoding, resolveFirst_present hk], same⟩
  | next decoding b head short same =>
    have hcur : u.curStr ≠ [] := h.curPresent decoding.2.1 (by simp [decoding.2.2])
    obtain ⟨hlow, hn⟩ := allocated_bounds h.nextLow
    rw [same.stringOf_eq] at hk
    have hfc : firstChar k (allocated u) { u with nextCode := allocated u } = some b := by
      obtain ⟨c, y, hsbuf⟩ := List.exists_cons_of_ne_nil hs
      rw [hsbuf] at hk head
      obtain rfl : c = b := Option.some.inj head
      exact firstChar_of_withEntry h hcur hk
    refine ⟨_, _, ?_, same⟩
    rw [resolveCode_inNext decoding]
    exact resolveNext_insert h.nextLow hcur short (le_of_stringOf_withEntry hlow hn hk) hfc hk

theorem lags_of_bcRead {o : Option Code} (hread : bcRead u = (o, t)) (hlag : Lags s u) : Lags s t := by
  obtain ⟨bs, rb, rc, rfl⟩ := eq_of_bcRead hread
  cases hlag with
  | first decoding same => exact .first decoding same
  | next decoding b head short same => exact .next decoding b head short same

/-- The command port and the counters, which a code of a segment leaves as they are. -/
def KeepsCounters (u v : State) : Prop := v.cmdq = u.cmdq ∧ v.fidx = u.fidx ∧ v.nfiles = u.nfiles

theorem keepsCounters_of_bcRead {o : Option Code} (hread : bcRead u = (o, t)) :
    KeepsCounters u t ∧ t.dout = u.dout := by
  obtain ⟨bs, rb, rc, rfl⟩ := eq_of_bcRead hread
  exact ⟨⟨rfl, rfl, rfl⟩, rfl⟩

theorem KeepsCounters.trans (h : KeepsCounters s t) (h' : KeepsCounters t u) : KeepsCounters s u := by
  obtain ⟨hq, hf, hn⟩ := h
  obtain ⟨hq', hf', hn'⟩ := h'
  exact ⟨hq'.trans hq, hf'.trans hf, hn'.trans hn⟩

/-- The DATA events of a string (R87). -/
def dataEvents (x : Bytes) : List DEvent := x.map fun b => ⟨.data, b⟩

/-- The decoder reads the code of the match and puts the match on DOUT (R86 to R88). -/
theorem reaches_caught (h : Inv u) (hlag : Lags s u) (hs : s.sbuf ≠ []) (hk : stringOf k.toNat s = some s.sbuf)
    (hne : cs ≠ []) (hrem : Remaining (k :: cs) u) :
    ∃ v, Reaches u v ∧ Caught s v ∧ Remaining cs v ∧ v.dout = u.dout ++ dataEvents s.sbuf ∧ KeepsCounters u v := by
  obtain ⟨t, hread, hrem'⟩ := bcRead_remaining h hne hrem
  obtain ⟨ht, -⟩ := inv_of_bcRead hread h
  obtain ⟨hkeep, hdout⟩ := keepsCounters_of_bcRead hread
  obtain ⟨nc, en, hresolve, hsame⟩ := resolveCode_of_lags ht (lags_of_bcRead hread hlag) hs hk
  obtain ⟨d, hdec, hd⟩ := hlag.decoding
  obtain ⟨hbusy, hmode, -⟩ := decoding_of_bcRead hread hdec
  have hstep := step_resolveCode h.noUop hdec hd hread (ne_sentinel_of_stringOf hk)
  have hcode := reaches_of_step (hstep.trans hresolve)
  have hemit := reaches_of_step (step_emit (inv_of_reaches h hcode).noUop ⟨hbusy, hmode, rfl⟩)
  exact ⟨_, hcode.trans hemit, ⟨⟨hbusy, hmode, rfl⟩, rfl, hsame⟩, hrem',
    congrArg (· ++ dataEvents s.sbuf) hdout, hkeep⟩

/-! ### The commands of a segment -/

/-- The core gets from s to t with the program is left in CFILE, and has written the codes ks. -/
structure Emits (is : List Instr) (ks : List Code) (s t : State) : Prop where
  reaches : Reaches s t
  poised : Poised .cfile is t
  wrote : Wrote ks s t
  fidx : t.fidx = s.fidx
  nfiles : t.nfiles = s.nfiles

/-- One segment further. -/
def CountsUp (s t : State) : Prop := t.fidx = s.fidx + 1 ∧ t.nfiles = s.nfiles

/-- The core gets from s to the end of the segment with the program is left, and has written the codes ks and the
sentinel. -/
structure Closes (is : List Instr) (ks : List Code) (s t : State) : Prop where
  reaches : Reaches s t
  poised : Poised .cbody is t
  wrote : Wrote (segmentCodes ks) s t
  countsUp : CountsUp s t

theorem Emits.closes {is' : List Instr} {ks' : List Code} (h : Emits is ks s u) (h' : Closes is' ks' u t) :
    Closes is' (ks ++ ks') s t where
  reaches := h.reaches.trans h'.reaches
  poised := h'.poised
  wrote := by
    rw [segmentCodes, List.append_assoc]
    exact h.wrote.trans h'.wrote
  countsUp := by
    obtain ⟨hfidx, hnfiles⟩ := h'.countsUp
    exact ⟨by rw [hfidx, h.fidx], hnfiles.trans h.nfiles⟩

/-- C_FBEGIN starts an empty epoch with an empty match (R79). -/
theorem emits_begin (hroom : s.fidx.toNat < s.nfiles.toNat) (h : Poised .cbody (.cFbegin :: is) s) :
    ∃ t, Emits is [] s t ∧ t.sbuf = [] ∧ t.nextCode = 256#12 := by
  obtain ⟨hreach, hinv⟩ := h.reaches (i := .cFbegin) rfl (if_neg (Nat.not_le_of_lt hroom))
  exact ⟨_, ⟨hreach, ⟨hinv, ⟨h.ready.1, rfl⟩, rfl⟩, wrote_nil rfl rfl rfl, rfl, rfl⟩, rfl, rfl⟩

/-- The first byte of a file becomes the match (R80). -/
theorem emits_firstByte {b : Byte} (h : Poised .cfile (.cData b :: is) s) (hs : s.sbuf = []) :
    ∃ t, Emits is [] s t ∧ t.sbuf = [b] ∧ t.nextCode = s.nextCode := by
  obtain ⟨hreach, hinv⟩ := h.reaches (i := .cData b) rfl (if_pos hs)
  exact ⟨_, ⟨hreach, ⟨hinv, h.ready, rfl⟩, wrote_nil rfl rfl rfl, rfl, rfl⟩, rfl, rfl⟩

/-- A byte with which the epoch holds the match makes it longer (R80). -/
theorem emits_extend {b : Byte} (h : Poised .cfile (.cData b :: is) s) (hs : s.sbuf ≠ [])
    (hk : dictElookup (s.sbuf ++ [b]) s = some k) :
    ∃ t, Emits is [] s t ∧ t.sbuf = s.sbuf ++ [b] ∧ SameEpoch t s := by
  obtain ⟨-, hdata⟩ := cDataExtendsOrEmits
  obtain ⟨-, hextend, -⟩ := hdata { s with cmdq := programWords is } b h.ready
  have hreach := reaches_of_step ((h.step_exec rfl).trans (hextend k hs hk))
  exact ⟨_, ⟨hreach, ⟨inv_of_reaches h.inv hreach, h.ready, rfl⟩, wrote_nil rfl rfl rfl, rfl, rfl⟩, rfl, rfl,
    fun _ _ _ => rfl⟩

/-- Any other byte writes the code of the match, inserts the match with the byte, and becomes the match (R80). -/
theorem emits_code {b : Byte} (h : Poised .cfile (.cData b :: is) s) (hs : s.sbuf ≠ [])
    (hk : dictElookup s.sbuf s = some k) (hnone : dictElookup (s.sbuf ++ [b]) s = none) :
    ∃ t, Emits is [k] s t ∧ t.sbuf = [b] ∧ SameEpoch t (withEntry (allocated s) (s.sbuf ++ [b]) s) := by
  obtain ⟨-, hdata⟩ := cDataExtendsOrEmits
  obtain ⟨-, -, hemit⟩ := hdata { s with cmdq := programWords is } b h.ready
  have hreach := reaches_of_step
    ((h.step_exec rfl).trans (hemit k hs hnone hk (sbuf_length_le (s := s) h.inv) h.inv.nextLow))
  exact ⟨_, ⟨hreach, ⟨inv_of_reaches h.inv hreach, ⟨h.ready.1, h.ready.2⟩, rfl⟩, wrote_bcWrite k s, rfl, rfl⟩, rfl, rfl,
    fun _ _ _ => rfl⟩

/-- C_FEND ends with the sentinel: u is the state it reaches before it writes that one (R81). -/
theorem closes_of_closeSegment (hreach : Reaches s (closeSegment u)) (hinv : Inv (closeSegment u))
    (hb : u.busy = false) (hq : u.cmdq = programWords is) (hwrote : Wrote ks s u) (hfidx : u.fidx = s.fidx)
    (hnfiles : u.nfiles = s.nfiles) : Closes is ks s (closeSegment u) :=
  ⟨hreach, ⟨hinv, ⟨hb, rfl⟩, hq⟩, hwrote.trans (wrote_bcWrite (BitVec.ofNat 12 Config.sentinel) u),
    congrArg (· + 1) hfidx, hnfiles⟩

/-- C_FEND on an empty match writes the sentinel alone (R81). -/
theorem closes_empty (h : Poised .cfile (.cFend :: is) s) (hs : s.sbuf = []) : ∃ t, Closes is [] s t := by
  obtain ⟨hreach, hinv⟩ := h.reaches (i := .cFend) rfl (if_pos hs)
  exact ⟨_, closes_of_closeSegment hreach hinv h.ready.1 rfl (wrote_nil rfl rfl rfl) rfl rfl⟩

/-- C_FEND writes the code of the match and the sentinel (R81). -/
theorem closes_match (h : Poised .cfile (.cFend :: is) s) (hs : s.sbuf ≠ []) (hk : dictElookup s.sbuf s = some k) :
    ∃ t, Closes is [k] s t := by
  have hbody : endSegment { s with cmdq := programWords is } =
      .next (closeSegment (bcWrite k { s with cmdq := programWords is })) := by
    have hk' : dictElookup s.sbuf { s with cmdq := programWords is } = some k := hk
    rw [endSegment, if_neg hs, hk']
  obtain ⟨hreach, hinv⟩ := h.reaches (i := .cFend) rfl hbody
  exact ⟨_, closes_of_closeSegment hreach hinv ((bcWrite_busy ..).trans h.ready.1) (bcWrite_cmdq ..)
    (wrote_bcWrite k { s with cmdq := programWords is }) (bcWrite_fidx ..) (bcWrite_nfiles ..)⟩

/-! ### The codes of a match and of the bytes after it -/

/-- Every decoder that lags behind the encoder s by its match reads the codes ks as the bytes x. -/
def DecodesFrom (s : State) (ks : List Code) (x : Bytes) : Prop :=
  ∀ (u : State) (cs : List Code), Inv u → Lags s u → cs ≠ [] → Remaining (ks ++ cs) u →
    ∃ v, Reaches u v ∧ Decoding .next v ∧ Remaining cs v ∧ v.dout = u.dout ++ dataEvents x ∧ KeepsCounters u v

theorem decodesFrom_single (hs : s.sbuf ≠ []) (hk : stringOf k.toNat s = some s.sbuf) :
    DecodesFrom s [k] s.sbuf := by
  intro u cs h hlag hne hrem
  obtain ⟨v, hreach, hcaught, hrem', hdout, hkeep⟩ := reaches_caught h hlag hs hk hne hrem
  exact ⟨v, hreach, hcaught.decoding, hrem', hdout, hkeep⟩

/-- A longer match has the same first byte, so that a decoder lags behind it in the same way. -/
theorem Lags.extend {b : Byte} (h : Lags s u) (hs : s.sbuf ≠ []) (ht : t.sbuf = s.sbuf ++ [b])
    (hsame : SameEpoch t s) : Lags t u := by
  have hhead : t.sbuf.head? = s.sbuf.head? := by rw [ht, List.head?_append_of_ne_nil _ hs]
  cases h with
  | first decoding same => exact .first decoding (hsame.trans same)
  | next decoding c head short same => exact .next decoding c (hhead.trans head) short (hsame.trans same)

/-- A decoder that has caught up lags again by the entry that the encoder then makes. -/
theorem Caught.lags {b : Byte} (hcaught : Caught s u) (h : Inv s) (hu : Inv u) (ht : t.sbuf = [b])
    (hsame : SameEpoch t (withEntry (allocated s) (s.sbuf ++ [b]) s)) : Lags t u := by
  obtain ⟨hdec, hcur, hsame'⟩ := hcaught
  refine .next hdec b (congrArg List.head? ht) (by rw [hcur]; exact sbuf_length_le h) ?_
  rw [hcur]
  exact hsame.trans (hsame'.withEntry h hu.memWf _)

theorem decodesFrom_cons {b : Byte} {x : Bytes} (h : Inv s) (hs : s.sbuf ≠ [])
    (hk : stringOf k.toNat s = some s.sbuf) (ht : t.sbuf = [b])
    (hsame : SameEpoch t (withEntry (allocated s) (s.sbuf ++ [b]) s)) (hrest : DecodesFrom t ks x) :
    DecodesFrom s (k :: ks) (s.sbuf ++ x) := by
  intro u cs hu hlag hne hrem
  obtain ⟨w, hreach, hcaught, hrem', hdout, hkeep⟩ :=
    reaches_caught hu hlag hs hk (List.append_ne_nil_of_right_ne_nil ks hne) hrem
  have hw := inv_of_reaches hu hreach
  obtain ⟨v, hreach', hdec, hrem'', hdout', hkeep'⟩ := hrest w cs hw (hcaught.lags h hw ht hsame) hne hrem'
  refine ⟨v, hreach.trans hreach', hdec, hrem'', ?_, hkeep.trans hkeep'⟩
  rw [hdout', hdout, dataEvents, dataEvents, dataEvents, List.map_append, List.append_assoc]

/-- From a match in CFILE, the bytes d and C_FEND write codes that decode to the match and the bytes (R80, R81). -/
theorem closes_of_match {d : Bytes} (h : Poised .cfile (d.map Instr.cData ++ Instr.cFend :: is) s)
    (hs : s.sbuf ≠ []) :
    ∃ t ks, Closes is ks s t ∧ DecodesFrom s ks (s.sbuf ++ d) := by
  obtain ⟨k, hk, hstring⟩ := dictElookup_sbuf h.inv hs
  induction d generalizing s k with
  | nil =>
    obtain ⟨t, hclose⟩ := closes_match h hs hk
    rw [List.append_nil]
    exact ⟨t, [k], hclose, decodesFrom_single hs hstring⟩
  | cons b d ih =>
    cases hlook : dictElookup (s.sbuf ++ [b]) s with
    | some k' =>
      obtain ⟨u, hemit, hsbuf, hsame⟩ := emits_extend h hs hlook
      have hu : u.sbuf ≠ [] := by simp [hsbuf]
      obtain ⟨ku, hku, hstringu⟩ := dictElookup_sbuf hemit.poised.inv hu
      obtain ⟨t, ks, hclose, hdec⟩ := ih hemit.poised hu ku hku hstringu
      rw [hsbuf, List.append_assoc] at hdec
      exact ⟨t, ks, hemit.closes hclose, fun w cs hw hlag => hdec w cs hw (hlag.extend hs hsbuf hsame)⟩
    | none =>
      obtain ⟨u, hemit, hsbuf, hsame⟩ := emits_code h hs hk hlook
      have hu : u.sbuf ≠ [] := by simp [hsbuf]
      obtain ⟨ku, hku, hstringu⟩ := dictElookup_sbuf hemit.poised.inv hu
      obtain ⟨t, ks, hclose, hdec⟩ := ih hemit.poised hu ku hku hstringu
      rw [hsbuf] at hdec
      exact ⟨t, k :: ks, hemit.closes hclose, decodesFrom_cons h.inv hs hstring hsbuf hsame hdec⟩

/-! ### A segment -/

theorem segmentEnded_of_bcRead {o : Option Code} (hread : bcRead u = (o, t)) :
    (segmentEnded t).dout = u.dout ++ [⟨.fileEnd, 0⟩] ∧ (segmentEnded t).cmdq = u.cmdq ∧
      CountsUp u (segmentEnded t) := by
  obtain ⟨bs, rb, rc, rfl⟩ := eq_of_bcRead hread
  exact ⟨rfl, rfl, rfl, rfl⟩

/-- The sentinel, or at the end of the archive its top byte, ends the segment (R89, R90, R93). -/
theorem reaches_segmentEnd (h : Inv u) (hdec : Decoding d u) (hd : d ≠ .emit)
    (hlast : cs = [] → u.fidx.toNat + 1 = u.nfiles.toNat) (hrem : Remaining (0xFFF#12 :: cs) u) :
    ∃ v, Reaches u v ∧ Ready .dbody v ∧ Remaining cs v ∧ v.dout = u.dout ++ [⟨.fileEnd, 0⟩] ∧
      v.cmdq = u.cmdq ∧ CountsUp u v := by
  by_cases hcs : cs = []
  · subst hcs
    obtain ⟨t, hread | ⟨hread, hrcnt, hrbits⟩⟩ := bcRead_lastSentinel h hrem
    · exact ⟨_, reaches_of_step (step_sent h.noUop hdec hd hread), ⟨rfl, rfl⟩, .inl rfl,
        segmentEnded_of_bcRead hread⟩
    · obtain ⟨⟨-, hfidx, hnfiles⟩, -⟩ := keepsCounters_of_bcRead hread
      have hend : exhausted t = segmentEnded { t with truncSent := true } :=
        if_pos ⟨by rw [hfidx, hnfiles]; exact hlast rfl, hrcnt, hrbits⟩
      have hstep := step_exhausted h.noUop hdec hd hread
      rw [hend] at hstep
      exact ⟨_, reaches_of_step hstep, ⟨rfl, rfl⟩, .inl rfl, segmentEnded_of_bcRead (t := t) hread⟩
  · obtain ⟨t, hread, hrem'⟩ := bcRead_remaining h hcs hrem
    exact ⟨_, reaches_of_step (step_sent h.noUop hdec hd hread), ⟨rfl, rfl⟩, hrem', segmentEnded_of_bcRead hread⟩

/-- Every decoder in DS_FIRST reads the segment of the codes ks as the contents x of a file. -/
def SegmentDecodes (x : Bytes) (ks : List Code) : Prop :=
  ∀ (u : State) (cs : List Code), Inv u → Decoding .first u → (cs = [] → u.fidx.toNat + 1 = u.nfiles.toNat) →
    Remaining (segmentCodes ks ++ cs) u →
    ∃ v, Reaches u v ∧ Ready .dbody v ∧ Remaining cs v ∧ v.dout = u.dout ++ fileEvents x ∧
      v.cmdq = u.cmdq ∧ CountsUp u v

theorem segmentDecodes_nil : SegmentDecodes [] [] :=
  fun _ _ h hdec hlast hrem => reaches_segmentEnd h hdec nofun hlast hrem

/-- An encoder and a decoder at the start of a segment have the same, empty epoch (R79, R86). -/
theorem lags_of_first (hs : s.nextCode = 256#12) (h : Inv u) (hdec : Decoding .first u) : Lags s u := by
  have hu : u.nextCode = 256#12 := BitVec.eq_of_toNat_eq (h.firstEmpty hdec.2.1 hdec.2.2)
  refine .first hdec ⟨hs.trans hu.symm, fun c hlow hc => ?_⟩
  rw [hs] at hc
  exact absurd hc (Nat.not_lt.mpr hlow)

theorem segmentDecodes_of_decodesFrom {x : Bytes} (hs : s.nextCode = 256#12) (h : DecodesFrom s ks x) :
    SegmentDecodes x ks := by
  intro u cs hu hdec hlast hrem
  rw [segmentCodes, List.append_assoc] at hrem
  obtain ⟨w, hreach, hnext, hrem', hdout, hcmdq, hfidx, hnfiles⟩ :=
    h u _ hu (lags_of_first hs hu hdec) (List.append_ne_nil_of_left_ne_nil (List.cons_ne_nil _ _) cs) hrem
  obtain ⟨v, hreach', hready, hrem'', hdout', hcmdq', hfidx', hnfiles'⟩ :=
    reaches_segmentEnd (inv_of_reaches hu hreach) hnext nofun (by rwa [hfidx, hnfiles]) hrem'
  refine ⟨v, hreach.trans hreach', hready, hrem'', ?_, hcmdq'.trans hcmdq, by rw [hfidx', hfidx],
    hnfiles'.trans hnfiles⟩
  rw [hdout', hdout, List.append_assoc]
  rfl

/-- FILE writes the segment of codes that decode to the contents (R63, R79 to R81). -/
theorem closes_file {x : Bytes} (hroom : s.fidx.toNat < s.nfiles.toNat) (h : Poised .cbody (expandFile x ++ is) s) :
    ∃ t ks, Closes is ks s t ∧ SegmentDecodes x ks := by
  rw [expandFile, List.append_assoc, List.append_assoc] at h
  obtain ⟨u, hbegin, hempty, hnext⟩ := emits_begin hroom h
  cases x with
  | nil =>
    obtain ⟨t, hclose⟩ := closes_empty hbegin.poised hempty
    exact ⟨t, [], hbegin.closes hclose, segmentDecodes_nil⟩
  | cons b x =>
    obtain ⟨w, hbyte, hsbuf, hnext'⟩ := emits_firstByte hbegin.poised hempty
    obtain ⟨t, ks, hclose, hdec⟩ := closes_of_match hbyte.poised (by simp [hsbuf])
    rw [hsbuf] at hdec
    exact ⟨t, ks, hbegin.closes (hbyte.closes hclose), segmentDecodes_of_decodesFrom (hnext'.trans hnext) hdec⟩

/-! ### The body -/

theorem fidx_succ (hlt : s.fidx.toNat < s.nfiles.toNat) (h : CountsUp s t) :
    t.fidx.toNat = s.fidx.toNat + 1 ∧ t.nfiles = s.nfiles := by
  obtain ⟨hfidx, hnfiles⟩ := h
  have hn := s.nfiles.isLt
  exact ⟨by rw [hfidx]; exact toNat_succ (by omega), hnfiles⟩

/-- The segments of the remaining files, in order. -/
theorem reaches_files {xs : List Bytes} (hcount : s.fidx.toNat + xs.length = s.nfiles.toNat)
    (h : Poised .cbody (xs.flatMap expandFile ++ is) s) :
    ∃ t kss, Reaches s t ∧ Poised .cbody is t ∧ Wrote (kss.flatMap segmentCodes) s t ∧ t.fidx = t.nfiles ∧
      List.Forall₂ SegmentDecodes xs kss := by
  induction xs generalizing s with
  | nil => exact ⟨s, [], .refl, h, wrote_nil rfl rfl rfl, BitVec.eq_of_toNat_eq hcount, .nil⟩
  | cons x xs ih =>
    rw [List.length_cons] at hcount
    rw [List.flatMap_cons, List.append_assoc] at h
    have hlt : s.fidx.toNat < s.nfiles.toNat := by omega
    obtain ⟨u, ks, hclose, hdec⟩ := closes_file hlt h
    obtain ⟨hfidx, hnfiles⟩ := fidx_succ hlt hclose.countsUp
    obtain ⟨t, kss, hreach, ht, hwrote, hall, hdecs⟩ := ih (by rw [hfidx, hnfiles]; omega) hclose.poised
    exact ⟨t, ks :: kss, hclose.reaches.trans hreach, ht, hclose.wrote.trans hwrote, hall, .cons hdec hdecs⟩

/-- D_FILE puts the contents of the next segment on DOUT (R85, R89, R107). -/
theorem reaches_dFile {x : Bytes} (hdec : SegmentDecodes x ks) (hlt : u.fidx.toNat < u.nfiles.toNat)
    (hlast : cs = [] → u.fidx.toNat + 1 = u.nfiles.toNat) (hrem : Remaining (segmentCodes ks ++ cs) u)
    (h : Poised .dbody (.dFile :: is) u) :
    ∃ v, Reaches u v ∧ Poised .dbody is v ∧ Remaining cs v ∧ v.dout = u.dout ++ fileEvents x ∧ CountsUp u v := by
  obtain ⟨haccept, hinv⟩ := h.reaches (i := .dFile) rfl (if_neg (Nat.not_le_of_lt hlt))
  obtain ⟨v, hreach, hready, hrem', hdout, hcmdq, hup⟩ := hdec _ cs hinv ⟨rfl, rfl, rfl⟩ hlast hrem
  exact ⟨v, haccept.trans hreach, ⟨inv_of_reaches hinv hreach, hready, hcmdq⟩, hrem', hdout, hup⟩

theorem flatMap_segmentCodes_eq_nil {kss : List (List Code)} (h : kss.flatMap segmentCodes = []) : kss = [] := by
  cases kss with
  | nil => rfl
  | cons ks kss => simp [segmentCodes] at h

/-- One D_FILE for each segment puts the files' contents on DOUT (R107). -/
theorem reaches_dFiles {xs : List Bytes} {kss : List (List Code)} (hdecs : List.Forall₂ SegmentDecodes xs kss)
    (hcount : u.fidx.toNat + xs.length = u.nfiles.toNat) (hrem : Remaining (kss.flatMap segmentCodes) u)
    (h : Poised .dbody (List.replicate xs.length Instr.dFile ++ is) u) :
    ∃ v, Reaches u v ∧ Poised .dbody is v ∧ v.dout = u.dout ++ xs.flatMap fileEvents ∧ v.fidx = v.nfiles := by
  induction hdecs generalizing u with
  | nil => exact ⟨u, .refl, h, (List.append_nil _).symm, BitVec.eq_of_toNat_eq hcount⟩
  | @cons x ks xs kss hdec hdecs ih =>
    rw [List.length_cons] at hcount
    have hlt : u.fidx.toNat < u.nfiles.toNat := by omega
    have hlast : kss.flatMap segmentCodes = [] → u.fidx.toNat + 1 = u.nfiles.toNat := by
      intro hnil
      have hlen := hdecs.length_eq
      rw [flatMap_segmentCodes_eq_nil hnil, List.length_nil] at hlen
      omega
    obtain ⟨w, hreach, hw, hrem', hdout, hup⟩ := reaches_dFile hdec hlt hlast hrem h
    obtain ⟨hfidx, hnfiles⟩ := fidx_succ hlt hup
    obtain ⟨v, hreach', hv, hdout', hall⟩ := ih (by rw [hfidx, hnfiles]; omega) hrem' hw
    refine ⟨v, hreach.trans hreach', hv, ?_, hall⟩
    rw [hdout', hdout, List.append_assoc, List.flatMap_cons]

/-! ### The archive -/

/-- The bytes of a body are the input of codes for every decoder that starts on them with an empty read BitBuffer. -/
def HoldsBody (body : Bytes) (cs : List Code) : Prop :=
  ∀ u : State, u.rcnt = 0#4 → u.ain = body → Remaining cs u

/-- The bytes written from an aligned write BitBuffer are such a body: with an odd number of codes the last sentinel
keeps its low bits in WBITS (R53, R102). -/
theorem holdsBody_of_wrote {body : Bytes} (ht : Inv t) (hs : s.wcnt = 0#3) (haout : t.aout = s.aout ++ body)
    (hlast : ∃ ds, cs = ds ++ [0xFFF#12]) (hwrote : Wrote cs s t) : HoldsBody body cs := by
  intro u hu hain
  obtain ⟨ds, rfl⟩ := hlast
  obtain ⟨out, hout, hbits⟩ := hwrote
  obtain rfl : body = out := List.append_cancel_left (haout.symm.trans hout)
  have hin : inputBits u = body.flatMap byteBits := by
    rw [inputBits, hu, hain]
    rfl
  rw [hs] at hbits
  obtain ⟨hcnt | hcnt, -⟩ := ht.wbuf
  · rw [hcnt] at hbits
    exact .inr (.inl (hin.trans ((List.append_nil _).symm.trans hbits)))
  · have hsent : codeBits 0xFFF#12 = byteBits 0xFF#8 ++ msbBits 4 0xF := rfl
    rw [hcnt, List.flatMap_append, List.flatMap_singleton, hsent] at hbits
    have hcut : body.flatMap byteBits ++ msbBits 4 t.wbits.toNat =
        (ds.flatMap codeBits ++ byteBits 0xFF#8) ++ msbBits 4 0xF := by
      rw [List.append_assoc]
      exact hbits
    exact .inr (.inr ⟨ds, rfl, hin.trans (List.append_inj_left' hcut (by rw [length_msbBits, length_msbBits]))⟩)

/-- The codes of one or more segments end in a sentinel. -/
theorem exists_flatMap_segmentCodes {kss : List (List Code)} (h : kss ≠ []) :
    ∃ ds, kss.flatMap segmentCodes = ds ++ [0xFFF#12] := by
  obtain ⟨kss, ks, rfl⟩ := (List.eq_nil_or_concat' kss).resolve_left h
  exact ⟨kss.flatMap segmentCodes ++ ks, by simp [segmentCodes]⟩

/-- COMPRESS ends in IDLE, with the header and the segments on AOUT (R63, R98 to R102). -/
theorem reaches_compress {files : List (Bytes × Bytes)} (hne : files ≠ []) (hlen : files.length < 2 ^ 32)
    (hnames : ∀ f ∈ files, validName f.1 = true) (h : Poised .idle (expandPseudo (.compress files)) s) :
    ∃ t body kss, Reaches s t ∧ Poised .idle [] t ∧ t.aout = s.aout ++ (headerBytes (files.map Prod.fst) ++ body) ∧
      List.Forall₂ SegmentDecodes (files.map Prod.snd) kss ∧ HoldsBody body (kss.flatMap segmentCodes) := by
  have hprogram : expandPseudo (.compress files) = .cStart :: ((files.map Prod.fst).flatMap expandName ++
      Instr.cHdrend :: ((files.map Prod.snd).flatMap expandFile ++ [Instr.cFinish])) := by
    simp [expandPseudo, List.flatMap_map]
  rw [hprogram] at h
  obtain ⟨u, hheader, hu, haout, hwcnt, hfidx, hnfiles⟩ :=
    reaches_header (by simpa using hne) (by simpa using hnames) (by simpa using hlen) h
  obtain ⟨w, kss, hbody, hw, hwrote, hall, hdecs⟩ :=
    reaches_files (by rw [hfidx, hnfiles]; simp) hu
  obtain ⟨hfinish, hinv⟩ := hw.reaches (i := .cFinish) rfl (if_neg (not_not.mpr hall))
  have ⟨body, haout', _⟩ := hwrote
  have hkss : kss ≠ [] := by
    rintro rfl
    exact hne (by simpa using hdecs.length_eq)
  have hholds := holdsBody_of_wrote hw.inv hwcnt haout' (exists_flatMap_segmentCodes hkss) hwrote
  exact ⟨_, body, kss, (hheader.trans hbody).trans hfinish, ⟨hinv, ⟨hw.ready.1, rfl⟩, rfl⟩,
    haout'.trans (by rw [haout, List.append_assoc]), hdecs, hholds⟩

/-- DECOMPRESS ends in IDLE, with the names and the contents on DOUT (R63, R104 to R107). -/
theorem reaches_decompress {files : List (Bytes × Bytes)} {kss : List (List Code)} {body : Bytes} (hne : files ≠ [])
    (hlen : files.length < 2 ^ 32) (hnames : ∀ f ∈ files, validName f.1 = true)
    (hdecs : List.Forall₂ SegmentDecodes (files.map Prod.snd) kss) (hbody : HoldsBody body (kss.flatMap segmentCodes))
    (hain : u.ain = headerBytes (files.map Prod.fst) ++ body)
    (h : Poised .idle (expandPseudo (.decompress files.length)) u) :
    ∃ v, Reaches u v ∧ Poised .idle [] v ∧ v.dout = u.dout ++ (files.map Prod.fst).flatMap nameEvents ++
      [⟨.hdrEnd, 0#8⟩] ++ (files.map Prod.snd).flatMap fileEvents := by
  have hprogram : expandPseudo (.decompress files.length) =
      .dStart :: (List.replicate (files.map Prod.fst).length Instr.dName ++
        Instr.dName :: (List.replicate (files.map Prod.snd).length Instr.dFile ++ [Instr.dFinish])) := by
    simp [expandPseudo, List.replicate_succ']
  rw [hprogram] at h
  obtain ⟨t, hheader, ht, hrest, hdout, hfidx, hnfiles, hrcnt⟩ :=
    reaches_dHeader (by simpa using hne) (by simpa using hnames) (by simpa using hlen) hain h
  obtain ⟨w, hfiles, hw, hdout', hall⟩ :=
    reaches_dFiles hdecs (by rw [hfidx, hnfiles]; simp) (hbody t hrcnt hrest) ht
  obtain ⟨hfinish, hinv⟩ := hw.reaches (i := .dFinish) rfl (if_neg (not_not.mpr hall))
  exact ⟨_, (hheader.trans hfiles).trans hfinish, ⟨hinv, ⟨hw.ready.1, rfl⟩, rfl⟩,
    hdout'.trans (congrArg (· ++ _) hdout)⟩

/-- Settles O60: COMPRESS leaves segments that every lagging decoder reads back, and DECOMPRESS is one. -/
theorem decompressInvertsCompress : Obligations.DecompressInvertsCompress := by
  unfold Obligations.DecompressInvertsCompress
  intro files hne hlen hnames s hs hidle
  have hsb : s.busy = false := busy_eq_false hs (by simp [hidle]) (by simp [hidle])
  obtain ⟨t, body, kss, hreach, ht, haout, hdecs, hbody⟩ :=
    reaches_compress (s := { s with cmdq := programWords (expandPseudo (.compress files)) }) hne hlen hnames
      ⟨{ hs with }, ⟨hsb, hidle⟩, rfl⟩
  obtain ⟨k, hrun⟩ := exists_run hreach
  refine ⟨k, t, _, hrun, ht.ready.2, fcode_eq_none ht.inv (by simp [ht.ready.2]), ht.program, haout,
    fun u hu huidle => ?_⟩
  have hub : u.busy = false := busy_eq_false hu (by simp [huidle]) (by simp [huidle])
  obtain ⟨v, hreach', hv, hdout⟩ := reaches_decompress
    (u := { u with
      ain := headerBytes (files.map Prod.fst) ++ body
      cmdq := programWords (expandPseudo (.decompress files.length)) })
    hne hlen hnames hdecs hbody rfl ⟨{ hu with }, ⟨hub, huidle⟩, rfl⟩
  obtain ⟨j, hrun'⟩ := exists_run hreach'
  rw [List.flatMap_map, List.flatMap_map] at hdout
  exact ⟨j, v, hrun', hv.ready.2, fcode_eq_none hv.inv (by simp [hv.ready.2]), hv.program, hdout⟩

end Sys2Proof.Proofs.RoundTrip

/-! No state with the invariant stops (44_framer.md R96): each rule of a command in its mode, each code that D_FILE
reads, and each move of the core answers a next state. -/

namespace Sys2Proof.Proofs.Progress

open Sys2Proof.Machine Sys2Proof.Claims Sys2Proof.Proofs.Moves Sys2Proof.Proofs.Invariant
  Sys2Proof.Proofs.Commands Sys2Proof.Proofs.Encoder Sys2Proof.Proofs.Decoder

variable {s t : State} {i : Instr} {r : Rule} {c : Code} {d : DState}

/-- A rule that tests once and goes on either way. -/
theorem continues_ite {p : Prop} [Decidable p] {o o' : Result} (h : Continues o) (h' : Continues o') :
    Continues (if p then o else o') := by
  split
  · exact h
  · exact h'

/-! ### The commands -/

/-- C_DATA: the match has a code, and with one more byte it is short enough to be inserted (R80, R82, R83). -/
theorem continues_encodeByte (b : Byte) (h : Inv s) : Continues (encodeByte b s) := by
  by_cases hs : s.sbuf = []
  · exact ⟨_, if_pos hs⟩
  · cases hext : dictElookup (s.sbuf ++ [b]) s with
    | some k => exact ⟨{ s with sbuf := s.sbuf ++ [b] }, by simp only [encodeByte, hs, if_false, immString, hext]⟩
    | none =>
      obtain ⟨k, hk, -⟩ := dictElookup_sbuf h hs
      have hemit := emitAndInsert_found (b := b) hs hk (sbuf_length_le h) h.nextLow
      refine ⟨_, Eq.trans ?_ hemit⟩
      simp only [encodeByte, hs, if_false, immString, hext]

/-- C_FEND: the match has a code (R81, R82). -/
theorem continues_endSegment (h : Inv s) : Continues (endSegment s) := by
  by_cases hs : s.sbuf = []
  · exact ⟨_, if_pos hs⟩
  · obtain ⟨k, hk, -⟩ := dictElookup_sbuf h hs
    exact ⟨closeSegment (bcWrite k s), by simp only [endSegment, hs, if_false, hk]⟩

theorem continues_rule (hr : ruleOf i = some r) (h : Inv s) : Continues (r.body s) := by
  cases i with
  | cStart | dStart | dName => cases hr; exact ⟨_, rfl⟩
  | cNameb | cFbegin | cFinish | dFile | dFinish => cases hr; exact continues_ite ⟨_, rfl⟩ ⟨_, rfl⟩
  | cNameend | cHdrend => cases hr; exact continues_ite ⟨_, rfl⟩ (continues_ite ⟨_, rfl⟩ ⟨_, rfl⟩)
  | cData b => cases hr; exact continues_encodeByte b h
  | cFend => cases hr; exact continues_endSegment h
  | abort | illegalOp0 | illegalOpE | illegalOpF | bcWrite | bcRead | bcWclr | bcRclr | dictReset | dictAlloc
  | dictElookup | dictEinsert | dictDlookup | dictDinsert | uopReserved | sent | lit | dyn => cases hr

/-- While BUSY = 0 dispatch goes on wherever the rule does (R96). -/
theorem continues_command {op : Nat} {imm : Byte} {body : State → Result} (hb : s.busy = false)
    (hbody : Continues (body s)) : Continues (command op imm body s) := by
  rw [command, if_neg (Bool.eq_false_iff.mp hb)]
  exact continues_ite ⟨s, rfl⟩ (continues_ite hbody ⟨_, rfl⟩)

theorem continues_exec_of_ruleOf (hr : ruleOf i = some r) (hb : s.busy = false) (h : Inv s) :
    Continues (exec i s) := by
  rw [exec_of_ruleOf hr]
  exact continues_command hb (continues_rule hr h)

theorem continues_illegalWord (w : Word) (hb : s.busy = false) : Continues (illegalWord w s) := by
  rw [illegalWord, if_neg (Bool.eq_false_iff.mp hb)]
  exact continues_ite ⟨s, rfl⟩ ⟨_, rfl⟩

/-- Every instruction of the command port goes on while BUSY = 0: a command, ABORT, or an illegal word. -/
theorem continues_exec_decodeCmd {w : Word} (hdec : decodeCmd w = .ok i) (hb : s.busy = false) (h : Inv s) :
    Continues (exec i s) := by
  have henc := encode_of_decodeCmd hdec
  cases i with
  | cStart | cNameb | cNameend | cHdrend | cFbegin | cData | cFend | cFinish | dStart | dName | dFile
  | dFinish => exact continues_exec_of_ruleOf rfl hb h
  | abort => exact ⟨_, if_neg (Bool.eq_false_iff.mp hb)⟩
  | illegalOp0 | illegalOpE | illegalOpF => exact continues_illegalWord _ hb
  | bcWrite | bcRead | bcWclr | bcRclr | dictReset | dictAlloc | dictElookup | dictEinsert | dictDlookup
  | dictDinsert | uopReserved | sent | lit | dyn => cases henc

/-! ### The codes that D_FILE reads -/

/-- DS_FIRST: the code has a string or is a miss (R86). -/
theorem continues_resolveFirst (c : Code) (s : State) : Continues (resolveFirst c s) := by
  cases hx : stringOf c.toNat s with
  | none => exact ⟨_, resolveFirst_absent hx⟩
  | some x => exact ⟨_, resolveFirst_present hx⟩

/-- After the insertion at the allocated code every code up to it has a string (R29, R88). -/
theorem exists_stringOf_withEntry (h : Inv s) (hdec : Decoding d s) (x : Bytes)
    (hc : c.toNat ≤ (allocated s).toNat) : ∃ y, stringOf c.toNat (withEntry (allocated s) x s) = some y := by
  obtain ⟨hlow, hhigh⟩ := allocated_bounds h.nextLow
  obtain hlt | heq := Nat.lt_or_eq_of_le hc
  · obtain ⟨y, hy, -⟩ := exists_stringOf (inv_allocated_of_decoding h hdec) hlt
    exact ⟨y, (stringOf_withEntry_of_lt hhigh hlt x s).trans hy⟩
  · exact ⟨x, by rw [heq, stringOf_withEntry_same hlow hhigh h.memWf]⟩

/-- DS_NEXT: a code up to the allocated one has a first byte and, after the insertion, a string (R88, R92). -/
theorem continues_resolveNext (h : Inv s) (hdec : Decoding .next s) (c : Code) : Continues (resolveNext c s) := by
  by_cases hmiss : (allocated s).toNat < c.toNat
  · exact ⟨_, resolveNext_miss hmiss⟩
  · have hc : c.toNat ≤ (allocated s).toNat := Nat.le_of_not_lt hmiss
    have hcur : s.curStr ≠ [] := h.curPresent hdec.2.1 (by simp [hdec.2.2])
    obtain ⟨fc, hfc⟩ := exists_firstChar (s := { s with nextCode := allocated s }) hcur
      (exists_stringOf (r := c) (inv_allocated_of_decoding h hdec))
    by_cases hshort : s.curStr.length ≤ 3840
    · obtain ⟨y, hy⟩ := exists_stringOf_withEntry h hdec (s.curStr ++ [fc]) hc
      exact ⟨_, resolveNext_insert h.nextLow hcur hshort hc hfc hy⟩
    · exact ⟨_, resolveNext_tooLong hc hfc (Nat.lt_of_not_le hshort)⟩

theorem continues_resolveCode (h : Inv s) (hdec : Decoding d s) (hd : d ≠ .emit) (c : Code) :
    Continues (resolveCode c s) := by
  cases d with
  | first => exact resolveCode_first hdec c ▸ continues_resolveFirst c s
  | next => exact resolveCode_inNext hdec c ▸ continues_resolveNext h hdec c
  | emit => exact absurd rfl hd

/-- A micro-step that reads a code goes on, whether it finds too few bits, the sentinel or another code. -/
theorem continues_step_reading (h : Inv s) (hdec : Decoding d s) (hd : d ≠ .emit) : Continues (step s) := by
  rcases hread : bcRead s with ⟨_ | c, t⟩
  · exact ⟨_, step_exhausted h.noUop hdec hd hread⟩
  · by_cases hsent : c = 0xFFF#12
    · exact ⟨_, step_sent h.noUop hdec hd (hsent ▸ hread)⟩
    · rw [step_resolveCode h.noUop hdec hd hread hsent]
      exact continues_resolveCode (inv_of_bcRead hread h).1 (decoding_of_bcRead hread hdec) hd c

/-! ### The step -/

/-- With BUSY = 1 a micro-step of D_NAME or D_FILE runs (R14). -/
theorem continues_step_busy (h : Inv s) (hb : s.busy = true) : Continues (step s) := by
  obtain hm | hm := h.busyMode hb
  · exact ⟨_, Runs.step_name h.noUop hb hm⟩
  · cases hd : s.dstate with
    | emit => exact ⟨_, step_emit h.noUop ⟨hb, hm, hd⟩⟩
    | first => exact continues_step_reading (d := .first) h ⟨hb, hm, hd⟩ nofun
    | next => exact continues_step_reading (d := .next) h ⟨hb, hm, hd⟩ nofun

/-- Settles O42, by the kind of the move: under the invariant every lookup and every insertion succeeds. -/
theorem stepNeverStopsUnderTheInvariant : Obligations.StepNeverStopsUnderTheInvariant := by
  unfold Obligations.StepNeverStopsUnderTheInvariant
  intro s h
  obtain ⟨hb, -⟩ | ⟨-, -, hf⟩ | ⟨w, rest, i, hb, -, hdec, hf⟩ | ⟨w, rest, -, hb, -, -, hf⟩ :=
    fetch_cases s h.noUop
  · exact continues_step_busy h hb
  · exact ⟨_, step_of_done hf⟩
  · rw [step_of_run hf]
    exact continues_exec_decodeCmd (s := { s with cmdq := rest }) hdec hb { h with }
  · rw [step_of_done hf]
    exact continues_illegalWord (s := { s with cmdq := rest }) w hb

end Sys2Proof.Proofs.Progress

/-! The dispatch of a word of the command port (44_framer.md R96, R97, 60_exceptions.md R110, R115): which words are
illegal, which instructions their modes admit, and what a step does with each. -/

namespace Sys2Proof.Proofs.Dispatch

open Sys2Proof.Machine Sys2Proof.Claims Sys2Proof.Proofs.Moves Sys2Proof.Proofs.Invariant
  Sys2Proof.Proofs.Commands Sys2Proof.Proofs.ReadWindow

variable {s t : State} {w : Word} {rest : List Word} {i : Instr} {r : Rule}

/-! ### The words -/

/-- The fields of a command word (R56). -/
theorem cmdWord_fields {op : Nat} (hop : op < 16) (b : Byte) :
    (cmdWord op b).extractLsb' 28 4 = BitVec.ofNat 4 op ∧ (cmdWord op b).extractLsb' 8 20 = 0#20 ∧
      (cmdWord op b).extractLsb' 0 8 = b := by
  have hb := b.isLt
  have hw := Laws.TableRow.cmdWord_toNat hop b
  refine ⟨extractLsb'_of_div ?_, extractLsb'_of_div ?_, extractLsb'_of_div ?_⟩
  all_goals rw [hw]
  · rw [BitVec.toNat_ofNat]
    omega
  · rw [BitVec.toNat_ofNat]
    omega
  · omega

theorem rawWord_op {op : Nat} (hop : op < 16) (x : BitVec 28) :
    (rawWord op x).extractLsb' 28 4 = BitVec.ofNat 4 op := by
  have hx := x.isLt
  refine extractLsb'_of_div ?_
  rw [Laws.TableRow.rawWord_toNat hop, BitVec.toNat_ofNat]
  omega

/-- The opcode of a dispatched command is a legal one, and only C_NAMEB and C_DATA take a byte (R58). -/
theorem ruleOf_op_imm (hr : ruleOf i = some r) :
    0 < r.op ∧ r.op < 0xD ∧ (r.imm = 0#8 ∨ r.op = 0x2 ∨ r.op = 0x6) := by
  cases i <;> cases hr <;> simp

/-- The word of a dispatched command is legal (R59). -/
theorem not_illegalWord_of_ruleOf (hr : ruleOf i = some r) : ¬ IllegalWord (cmdWord r.op r.imm) := by
  obtain ⟨hpos, hlt, himm⟩ := ruleOf_op_imm hr
  obtain ⟨hop, hrsv, hbyte⟩ := cmdWord_fields (show r.op < 16 by omega) r.imm
  rw [Encoding.not_illegalWord_iff, hop, hrsv, hbyte]
  have hne : ∀ n, n < 16 → n ≠ r.op → BitVec.ofNat 4 r.op ≠ BitVec.ofNat 4 n := by
    intro n hn hnop heq
    have hval := congrArg BitVec.toNat heq
    simp only [BitVec.toNat_ofNat] at hval
    omega
  exact ⟨⟨hne 0x0 (by decide) (by omega), hne 0xE (by decide) (by omega), hne 0xF (by decide) (by omega)⟩, rfl,
    himm.imp_right (Or.imp (by rw [·]) (by rw [·]))⟩

theorem not_illegalWord_abort : ¬ IllegalWord 0xD0000000#32 := by
  unfold IllegalWord
  decide

/-- A legal word is decoded to the instruction whose word it is (R58). -/
theorem exists_decodeCmd_of_legal (hw : ¬ IllegalWord w) : ∃ i, decodeCmd w = .ok i := by
  obtain ⟨row, -, -, hdec, -⟩ := (Encoding.everyWordSelectsOneMnemonicOrIsIllegal w).2 hw
  exact ⟨_, hdec⟩

/-- The decoder answers a dispatched command, ABORT, or an instruction that stands for its illegal word (R58, R110). -/
theorem decodeCmd_kinds (hdec : decodeCmd w = .ok i) :
    (∃ r, ruleOf i = some r ∧ w = cmdWord r.op r.imm) ∨ (i = .abort ∧ w = 0xD0000000#32) ∨
      (IllegalWord w ∧ ∀ s, exec i s = illegalWord w s) := by
  have henc := encode_of_decodeCmd hdec
  cases hr : ruleOf i with
  | some r => exact .inl ⟨r, rfl, Encoded.cmd.inj (henc.symm.trans (encode_of_ruleOf hr))⟩
  | none =>
    cases i with
    | abort => exact .inr (.inl ⟨rfl, decodeCmd_abort hdec⟩)
    | illegalOp0 x =>
      cases henc
      exact .inr (.inr ⟨.inl (.inl (rawWord_op (by decide) x)), fun _ => rfl⟩)
    | illegalOpE x =>
      cases henc
      exact .inr (.inr ⟨.inl (.inr (.inl (rawWord_op (by decide) x))), fun _ => rfl⟩)
    | illegalOpF x =>
      cases henc
      exact .inr (.inr ⟨.inl (.inr (.inr (rawWord_op (by decide) x))), fun _ => rfl⟩)
    | cStart | cNameb | cNameend | cHdrend | cFbegin | cData | cFend | cFinish | dStart | dName | dFile
    | dFinish => cases hr
    | bcWrite | bcRead | bcWclr | bcRclr | dictReset | dictAlloc | dictElookup | dictEinsert | dictDlookup
    | dictDinsert | uopReserved | sent | lit | dyn => cases henc

/-! ### The modes -/

/-- A mode that LEGAL admits is one that the matrix of R97 admits. -/
theorem legalOpcode_of_legal (hr : ruleOf i = some r) {m : Mode} (hl : legal m r.op = true) :
    LegalOpcode m (BitVec.ofNat 4 r.op) := by
  obtain rfl := mode_of_legal (ruleOf_op_ne_abort hr) hl
  cases i <;> cases hr <;> simp [LegalOpcode, modeOfOp]

/-- Settles O9: of the legal words only those of the dispatched commands have a mode that does not admit them. -/
theorem outOfModeCommandRaisesSeqError : Obligations.OutOfModeCommandRaisesSeqError := by
  unfold Obligations.OutOfModeCommandRaisesSeqError
  intro s w i hb hf hw hdec hmode
  obtain ⟨r, hr, rfl⟩ | ⟨-, rfl⟩ | ⟨hill, -⟩ := decodeCmd_kinds hdec
  · obtain ⟨-, hlt, -⟩ := ruleOf_op_imm hr
    rw [(cmdWord_fields (by omega) r.imm).1] at hmode
    rw [exec_of_ruleOf hr, command_illegal hb hf (Bool.eq_false_iff.mpr (mt (legalOpcode_of_legal hr) hmode))]
    rfl
  · exact absurd (.inl rfl) hmode
  · exact absurd hill hw

theorem illegalWord_fault (hb : s.busy = false) (hf : s.mode = .fault) (w : Word) :
    illegalWord w s = .next s := by
  simp only [illegalWord, hb, hf, if_true, Bool.false_eq_true, if_false]

/-- Outside FAULT an illegal word raises ILLEGAL_CMD (R110). -/
theorem illegalWord_raise (hb : s.busy = false) (hf : s.mode ≠ .fault) (w : Word) :
    illegalWord w s = .next (faulted .illegalCmd w noInfo s) := by
  simp only [illegalWord, hb, hf, Bool.false_eq_true, if_false]
  rfl

/-- In FAULT every instruction of the command port but ABORT is refused without any change (R115). -/
theorem exec_decodeCmd_fault (hdec : decodeCmd w = .ok i) (hw : w ≠ 0xD0000000#32) (hb : s.busy = false)
    (hf : s.mode = .fault) : exec i s = .next s := by
  obtain ⟨r, hr, -⟩ | ⟨-, habort⟩ | ⟨-, hexec⟩ := decodeCmd_kinds hdec
  · rw [exec_of_ruleOf hr, command_fault hb hf]
  · exact absurd habort hw
  · rw [hexec, illegalWord_fault hb hf]

/-! ### The step -/

section
variable (hp : s.uopPort = none) (hb : s.busy = false) (hq : s.cmdq = w :: rest)
include hp hb hq

theorem step_decoded (hdec : decodeCmd w = .ok i) : step s = exec i { s with cmdq := rest } := by
  obtain ⟨-, -, hcommand, -⟩ := Encoding.stepRunsDecodedInstruction
  exact hcommand s w rest i hp hb hq hdec

/-- A word that is no row of the opcode map is illegal (R59). -/
theorem step_rejected {x : Reject} (hdec : decodeCmd w = .reject x) :
    step s = illegalWord w { s with cmdq := rest } :=
  step_of_done (by simp [fetch, hp, hb, fetchCommand, hq, hdec])

theorem step_illegal (hw : IllegalWord w) : step s = illegalWord w { s with cmdq := rest } := by
  cases hdec : decodeCmd w with
  | reject x => exact step_rejected hp hb hq hdec
  | ok i =>
    rw [step_decoded hp hb hq hdec]
    obtain ⟨r, hr, rfl⟩ | ⟨-, rfl⟩ | ⟨-, hexec⟩ := decodeCmd_kinds hdec
    · exact absurd hw (not_illegalWord_of_ruleOf hr)
    · exact absurd hw not_illegalWord_abort
    · exact hexec _

/-- In FAULT a word other than ABORT is taken off the port and changes nothing else (R115). -/
theorem step_refused (hf : s.mode = .fault) (hw : w ≠ 0xD0000000#32) : step s = .next { s with cmdq := rest } := by
  cases hdec : decodeCmd w with
  | reject x =>
    rw [step_rejected hp hb hq hdec]
    exact illegalWord_fault (s := { s with cmdq := rest }) hb hf w
  | ok i =>
    rw [step_decoded hp hb hq hdec]
    exact exec_decodeCmd_fault (s := { s with cmdq := rest }) hdec hw hb hf

end

/-! ### The command port while BUSY = 1 -/

theorem dnStep_cmdq (s : State) : (dnStep s).cmdq = s.cmdq := by
  cases hain : s.ain with
  | nil => rw [dnStep_nil hain, raise_cmdq]
  | cons b rest =>
    obtain ⟨-, e⟩ | ⟨-, -, -, e⟩ | ⟨-, -, -, e⟩ | ⟨-, -, -, e⟩ | ⟨-, -, -, e⟩ := dnStep_cons hain
    all_goals rw [e]; rfl

theorem exhaust_cmdq (s : State) : (exhaust s).cmdq = s.cmdq := by
  obtain ⟨-, e⟩ | ⟨-, e⟩ := exhaust_cases s
  all_goals rw [e]; rfl

theorem resolveCode_cmdq {c : Code} (e : resolveCode c s = .next t) : t.cmdq = s.cmdq := by
  obtain ⟨-, -, ⟨-, hfirst⟩ | ⟨-, hnext⟩⟩ := resolveCode_next e
  · obtain ⟨-, rfl⟩ | ⟨x, -, rfl⟩ := resolveFirst_next hfirst
    all_goals rfl
  · obtain ⟨n, -, ⟨-, rfl⟩ | ⟨-, -, rfl⟩ | ⟨fc, y, -, -, -, -, -, rfl⟩⟩ := resolveNext_next hnext
    all_goals rfl

theorem exec_decodeCode_cmdq {c : Code} (e : exec (decodeCode c) s = .next t) : t.cmdq = s.cmdq := by
  obtain hc | ⟨d, hc⟩ | hc := decodeCode_cases c
  all_goals rw [hc] at e
  · obtain ⟨-, -, -, rfl⟩ := execSent_next e
    rfl
  · exact resolveCode_cmdq e
  · exact resolveCode_cmdq e

theorem bcRead_cmdq {o : Option Code} (hread : bcRead s = (o, t)) : t.cmdq = s.cmdq := by
  obtain ⟨bs, rb, rc, rfl⟩ := Decoder.eq_of_bcRead hread
  rfl

/-- A micro-step takes no word off the command port (R96). -/
theorem move_busy_cmdq (hp : s.uopPort = none) (hb : s.busy = true) (hmove : Move s t) : t.cmdq = s.cmdq := by
  cases hmove with
  | uop w port run => exact absurd (hp.symm.trans port) nofun
  | name port busy mode eq => exact eq ▸ dnStep_cmdq s
  | emit port busy mode dstate eq => exact eq ▸ dsEmit_cmdq s
  | code port busy mode dstate c u read run => exact (exec_decodeCode_cmdq run).trans (bcRead_cmdq read)
  | exhausted port busy mode dstate u read eq => exact eq ▸ (exhaust_cmdq u).trans (bcRead_cmdq read)
  | wait port busy | command port busy | illegal port busy => exact absurd (hb.symm.trans busy) nofun

/-- Settles O1: FAULT first, then the legality of the word, then that of the mode. -/
theorem stepDispatchesEveryWord : Obligations.StepDispatchesEveryWord := by
  unfold Obligations.StepDispatchesEveryWord
  refine ⟨fun s t hp hb hstep => move_busy_cmdq hp hb (move_of_step hstep), fun s w rest hp hb hq => ?_⟩
  refine ⟨fun _ hw => ?_, step_refused hp hb hq, fun hf hw => ?_, fun hf hw hmode => ?_, fun _ hw _ => ?_⟩
  · subst hw
    exact step_decoded hp hb hq rfl
  · rw [step_illegal hp hb hq hw]
    exact illegalWord_raise (s := { s with cmdq := rest }) hb hf w
  · obtain ⟨i, hdec⟩ := exists_decodeCmd_of_legal hw
    rw [step_decoded hp hb hq hdec]
    exact outOfModeCommandRaisesSeqError { s with cmdq := rest } w i hb hf hw hdec hmode
  · obtain ⟨i, hdec⟩ := exists_decodeCmd_of_legal hw
    exact ⟨i, hdec, encode_of_decodeCmd hdec, step_decoded hp hb hq hdec⟩

end Sys2Proof.Proofs.Dispatch

/-! The archive framing controller (44_framer.md R98 to R108): the header and finish commands of both paths, the
micro-step of D_NAME, and ABORT. -/

namespace Sys2Proof.Proofs.Framer

open Sys2Proof.Machine Sys2Proof.Claims Sys2Proof.Proofs.Moves Sys2Proof.Proofs.Commands Sys2Proof.Proofs.Runs

variable {s : State}

theorem countFull_iff (s : State) : countFull s = true ↔ s.nfiles = 0xFFFFFFFF#32 := by
  simp [countFull, ← BitVec.toNat_inj]

/-! ### ABORT -/

/-- The one legal word with OP = 0xD is that of ABORT (R58, R59). -/
theorem illegalWord_of_abort_op {w : Word} (hne : w ≠ 0xD0000000#32) (hop : w.extractLsb' 28 4 = 0xD#4) :
    IllegalWord w := by
  by_contra hw
  obtain ⟨-, hrsv, himm⟩ := (Encoding.not_illegalWord_iff w).mp hw
  rw [hop] at himm
  have hzero : w.extractLsb' 0 8 = 0#8 := himm.resolve_right (by decide)
  have hword := Encoding.eq_cmdWord_of_rsv hrsv
  rw [hop, hzero] at hword
  exact hne hword

/-- Settles O12: with OP = 0xD a legal word has no other bit set, and ABORT is the reset of the registers. -/
theorem abortRestoresEveryRegister : Obligations.AbortRestoresEveryRegister := by
  unfold Obligations.AbortRestoresEveryRegister
  exact ⟨rfl, rfl, fun _ => illegalWord_of_abort_op, fun s hb => if_neg (Bool.eq_false_iff.mp hb)⟩

/-! ### The compress path -/

/-- Settles O14: the rule is one state. -/
theorem cStartOpensCompress : Obligations.CStartOpensCompress := by
  unfold Obligations.CStartOpensCompress
  exact ⟨commandHead_of_ruleOf (i := .cStart) rfl rfl, fun s hready => exec_of_ready (i := .cStart) rfl hready⟩

/-- Settles O15: the rule tests the byte once. -/
theorem cNamebWritesOneNameByte : Obligations.CNamebWritesOneNameByte := by
  unfold Obligations.CNamebWritesOneNameByte
  refine ⟨fun b => commandHead_of_ruleOf (i := .cNameb b) rfl (append_eq_cmdWord 0x2#4 b), fun s b hready => ?_⟩
  have hword : (0x200000#24 ++ b : Word) = cmdWord 0x2 b := append_eq_cmdWord 0x2#4 b
  rw [exec_of_ready (i := .cNameb b) rfl hready, hword]
  exact ⟨fun hlf => if_pos hlf, fun hne => if_neg hne⟩

/-- Settles O16: the rule tests NAME_OPEN, then the count. -/
theorem cNameendEndsTheName : Obligations.CNameendEndsTheName := by
  unfold Obligations.CNameendEndsTheName
  refine ⟨commandHead_of_ruleOf (i := .cNameend) rfl rfl, fun s hready => ?_⟩
  rw [exec_of_ready (i := .cNameend) rfl hready]
  refine ⟨fun hclosed => if_pos hclosed, fun hopen hfull => ?_, fun hopen hroom => ?_⟩
  all_goals refine (if_neg (by simp [hopen])).trans ?_
  · exact if_pos ((countFull_iff s).mpr hfull)
  · exact if_neg (mt (countFull_iff s).mp hroom)

/-- Settles O17: the rule tests NAME_OPEN, then for a name. -/
theorem cHdrendEndsTheHeader : Obligations.CHdrendEndsTheHeader := by
  unfold Obligations.CHdrendEndsTheHeader
  refine ⟨commandHead_of_ruleOf (i := .cHdrend) rfl rfl, fun s hready => ?_⟩
  rw [exec_of_ready (i := .cHdrend) rfl hready]
  refine ⟨fun hopen => if_pos hopen, fun hclosed hzero => ?_, fun hclosed hcount => ?_⟩
  all_goals refine (if_neg (Bool.eq_false_iff.mp hclosed)).trans ?_
  · exact if_pos hzero
  · exact if_neg hcount

/-- Settles O21: the rule compares the counts once. -/
theorem cFinishClosesCompress : Obligations.CFinishClosesCompress := by
  unfold Obligations.CFinishClosesCompress
  refine ⟨commandHead_of_ruleOf (i := .cFinish) rfl rfl, fun s hready => ?_⟩
  rw [exec_of_ready (i := .cFinish) rfl hready]
  exact ⟨fun hne => if_pos hne, fun heq => if_neg (not_not.mpr heq)⟩

/-! ### The decompress path -/

/-- Settles O22: the rule is one state. -/
theorem dStartOpensDecompress : Obligations.DStartOpensDecompress := by
  unfold Obligations.DStartOpensDecompress
  exact ⟨commandHead_of_ruleOf (i := .dStart) rfl rfl, fun s hready => exec_of_ready (i := .dStart) rfl hready⟩

section
variable (hp : s.uopPort = none) (hb : s.busy = true) (hm : s.mode = .dhdr)
include hp hb hm

theorem step_headerTruncated (hain : s.ain = []) :
    step s = .next (faulted .hdrTruncated 0xA0000000#32 noInfo s) := by
  rw [step_name hp hb hm, dnStep_nil hain]
  rfl

/-- One name too many (R15, R105). -/
theorem step_nameEnd_full {rest : Bytes} (hain : s.ain = 0x0A#8 :: rest) (hopen : s.lineOpen = true)
    (hfull : s.nfiles = 0xFFFFFFFF#32) :
    step s = .next (faulted .countError 0xA0000000#32 noInfo { s with ain := rest }) := by
  rw [step_name hp hb hm]
  obtain ⟨hne, -⟩ | ⟨-, -, -, e⟩ | ⟨-, -, hroom, -⟩ | ⟨-, hclosed, -⟩ | ⟨-, hclosed, -⟩ := dnStep_cons hain
  · exact absurd rfl hne
  · exact congrArg _ e
  · exact absurd ((countFull_iff s).mpr hfull) hroom
  all_goals exact absurd hopen hclosed

/-- A blank line before any name (R105). -/
theorem step_headerEnd_empty {rest : Bytes} (hain : s.ain = 0x0A#8 :: rest) (hclosed : s.lineOpen = false)
    (hzero : s.nfiles = 0#32) :
    step s = .next (faulted .countError 0xA0000000#32 noInfo { s with ain := rest }) := by
  rw [step_name hp hb hm]
  obtain ⟨hne, -⟩ | ⟨-, hopen, -⟩ | ⟨-, hopen, -⟩ | ⟨-, -, -, e⟩ | ⟨-, -, hcount, -⟩ := dnStep_cons hain
  · exact absurd rfl hne
  · exact absurd (hopen.symm.trans hclosed) nofun
  · exact absurd (hopen.symm.trans hclosed) nofun
  · exact congrArg _ e
  · exact absurd hzero hcount

end

theorem nfiles_succ_lt (h : s.nfiles ≠ 0xFFFFFFFF#32) : s.nfiles.toNat + 1 < 2 ^ 32 := by
  have hlt := s.nfiles.isLt
  have hne : s.nfiles.toNat ≠ 0xFFFFFFFF := fun e => h (BitVec.eq_of_toNat_eq e)
  omega

/-- Settles O23, by the byte, LINE_OPEN and the count. -/
theorem dNameReadsOneHeaderLine : Obligations.DNameReadsOneHeaderLine := by
  unfold Obligations.DNameReadsOneHeaderLine
  refine ⟨commandHead_of_ruleOf (i := .dName) rfl rfl, fun s hready => exec_of_ready (i := .dName) rfl hready,
    fun s hp hb hm => ?_⟩
  exact ⟨step_headerTruncated hp hb hm, fun b rest hain hne => step_nameByte hp hb hm hain hne,
    fun rest hain hopen hfull => step_nameEnd_full hp hb hm hain hopen hfull,
    fun rest hain hopen hroom => step_nameEnd hp hb hm hain hopen (nfiles_succ_lt hroom),
    fun rest hain hclosed hzero => step_headerEnd_empty hp hb hm hain hclosed hzero,
    fun rest hain hclosed hcount => step_headerEnd hp hb hm hain hclosed hcount⟩

/-- Settles O31: the rule compares the counts once. -/
theorem dFinishClosesDecompress : Obligations.DFinishClosesDecompress := by
  unfold Obligations.DFinishClosesDecompress
  refine ⟨commandHead_of_ruleOf (i := .dFinish) rfl rfl, fun s hready => ?_⟩
  rw [exec_of_ready (i := .dFinish) rfl hready]
  exact ⟨fun hne => if_pos hne, fun heq => if_neg (not_not.mpr heq)⟩

end Sys2Proof.Proofs.Framer

/-! The exceptions of the command port (60_exceptions.md R110, R115): what the reserved opcodes raise, and that only
ABORT leaves FAULT. -/

namespace Sys2Proof.Proofs.Exceptions

open Sys2Proof.Machine Sys2Proof.Claims

variable {s : State}

/-! ### The reserved opcodes -/

/-- A word with a reserved opcode is its two fields side by side (R56). -/
theorem append_eq_rawWord (op : BitVec 4) (r : BitVec 28) : op ++ r = rawWord op.toNat r :=
  BitVec.eq_of_toNat_eq (by rw [ReadWindow.append_toNat, Laws.TableRow.rawWord_toNat op.isLt])

theorem illegalWord_rawWord_raise (hb : s.busy = false) (hf : s.mode ≠ .fault) (op : BitVec 4) (r : BitVec 28) :
    illegalWord (rawWord op.toNat r) s = .next (faulted .illegalCmd (op ++ r) noInfo s) := by
  rw [append_eq_rawWord]
  exact Dispatch.illegalWord_raise hb hf _

/-- Settles O10: the meaning of each reserved opcode is the dispatch of its illegal word. -/
theorem reservedOpcodesRaiseIllegalCmd : Obligations.ReservedOpcodesRaiseIllegalCmd := by
  unfold Obligations.ReservedOpcodesRaiseIllegalCmd
  intro s r hb
  refine ⟨fun hf => ?_, fun hf => ?_⟩
  · exact ⟨illegalWord_rawWord_raise hb hf 0x0#4 r, illegalWord_rawWord_raise hb hf 0xE#4 r,
      illegalWord_rawWord_raise hb hf 0xF#4 r⟩
  · exact ⟨Dispatch.illegalWord_fault hb hf _, Dispatch.illegalWord_fault hb hf _,
      Dispatch.illegalWord_fault hb hf _⟩

/-! ### FAULT -/

/-- A step of a core in FAULT takes the next word off the port unless it is ABORT, or waits where there is none
(R96, R115). -/
theorem step_fault (hf : s.mode = .fault) (hb : s.busy = false) (hp : s.uopPort = none)
    (hw : ∀ w ∈ s.cmdq, w ≠ 0xD0000000#32) : step s = .next { s with cmdq := s.cmdq.drop 1 } := by
  cases hq : s.cmdq with
  | nil =>
    obtain ⟨-, -, -, hwait⟩ := Encoding.stepRunsDecodedInstruction
    rw [hwait s hp hb hq, List.drop_nil, ← hq]
  | cons w rest => exact Dispatch.step_refused hp hb hq hf (hw w (hq ▸ List.mem_cons_self))

/-- Settles O11, by induction on the number of steps. -/
theorem faultIsStickyUntilAbort : Obligations.FaultIsStickyUntilAbort := by
  unfold Obligations.FaultIsStickyUntilAbort
  intro k
  induction k with
  | zero => exact fun s _ _ _ _ => rfl
  | succ k ih =>
    intro s hf hb hp hw
    rw [Runs.run_succ (M := Sys2Proof.core) (step_fault hf hb hp hw),
      ih { s with cmdq := s.cmdq.drop 1 } hf hb hp fun w hmem => hw w (List.mem_of_mem_drop hmem),
      List.drop_drop, Nat.add_comm]

end Sys2Proof.Proofs.Exceptions

/-! Runs of two cores side by side (70_reset_and_hazards.md R122): when the outcomes of two moves stay related, and
what the dictionaries of two states must share for their lookups to agree. -/

namespace Sys2Proof.Proofs.TwoRuns

open Sys2Proof.Machine Sys2Proof.Claims Sys2Proof.Proofs.Moves Sys2Proof.Proofs.Invariant
  Sys2Proof.Proofs.Dictionary Sys2Proof.Proofs.Encoder

variable {R : State → State → Prop} {s s' t : State} {o o' : Result}

/-! ### Outcomes -/

/-- Wherever the first outcome is a state, so is the second, and R relates the two. -/
def Tracks (R : State → State → Prop) (o o' : Result) : Prop :=
  ∀ t, o = .next t → ∃ t', o' = .next t' ∧ R t t'

theorem tracks_next (h : R s s') : Tracks R (.next s) (.next s') := by
  intro t e
  cases e
  exact ⟨s', rfl, h⟩

theorem tracks_fault {f : Fault} : Tracks R (.fault f) o' := by
  intro t e
  cases e

theorem tracks_refused {f : Refusal} : Tracks R (.refused f) o' := by
  intro t e
  cases e

theorem tracks_ite {c : Prop} [Decidable c] {a a' b b' : Result} (ha : Tracks R a a') (hb : Tracks R b b') :
    Tracks R (if c then a else b) (if c then a' else b') := by
  split
  · exact ha
  · exact hb

theorem rel_ite {c : Prop} [Decidable c] {a a' b b' : State} (ha : R a a') (hb : R b b') :
    R (if c then a else b) (if c then a' else b') := by
  split
  · exact ha
  · exact hb

/-- Dispatch keeps two states together where their BUSY and MODE agree and the rule does (R96). -/
theorem tracks_command {op : Nat} {imm : Byte} {body : State → Result} (hb : s'.busy = s.busy)
    (hm : s'.mode = s.mode) (h : R s s') (hbody : Tracks R (body s) (body s'))
    (hraise : R (raise .seqError (cmdWord op imm) FInfo.zero s) (raise .seqError (cmdWord op imm) FInfo.zero s')) :
    Tracks R (command op imm body s) (command op imm body s') := by
  rw [command, command, hb, hm]
  exact tracks_ite tracks_refused (tracks_ite (tracks_next h) (tracks_ite hbody (tracks_next hraise)))

/-- What two ports have gained since their starts stays the same when both gain y. -/
theorem gained_append {α : Type} {a a' b b' : List α} (h : ∃ x, b = a ++ x ∧ b' = a' ++ x) (y : List α) :
    ∃ x, b ++ y = a ++ x ∧ b' ++ y = a' ++ x := by
  obtain ⟨x, rfl, rfl⟩ := h
  exact ⟨x ++ y, List.append_assoc .., List.append_assoc ..⟩

/-! ### The dictionaries -/

/-- NEXT and the entries below it agree; the stale entries need not (R31, R34). -/
def SameEpoch (s s' : State) : Prop :=
  s.nextCode = s'.nextCode ∧ ∀ c, 256 ≤ c → c < s.nextCode.toNat → memRead c s.entry = memRead c s'.entry

/-- Epochs that have just begun agree (R72). -/
theorem sameEpoch_of_newEpoch (hn : s.nextCode = 256#12) (hn' : s'.nextCode = 256#12) : SameEpoch s s' := by
  refine ⟨hn.trans hn'.symm, fun c hlow hlt => ?_⟩
  rw [hn] at hlt
  exact absurd hlt (Nat.not_lt.mpr hlow)

theorem sameEpoch_allocated (h : SameEpoch s s') :
    SameEpoch { s with nextCode := allocated s } { s' with nextCode := allocated s } := by
  by_cases hfull : s.nextCode = 4095#12
  · have hcode : allocated s = 256#12 := if_pos hfull
    exact sameEpoch_of_newEpoch hcode hcode
  · have hcode : allocated s = s.nextCode := if_neg hfull
    rw [hcode]
    exact ⟨rfl, h.2⟩

/-- An insertion at the allocated code bounds NEXT and the string (R33, R74). -/
theorem bounds_of_insertable {x : Bytes} {u : State} (hi : insertable (allocated s) x u = true) :
    256 ≤ s.nextCode.toNat ∧ x.length ≤ 3841 := by
  obtain ⟨-, hlow, -, -, hlong⟩ := (insertable_iff ..).mp hi
  refine ⟨?_, hlong⟩
  by_cases hfull : s.nextCode = 4095#12
  · rw [hfull]
    decide
  · rwa [allocated, if_neg hfull] at hlow

/-- A string that is not what an unlisted entry reads as is read back from where it was written, whatever the memory
lists. -/
theorem memRead_memWrite_of_ne_nil {x : Bytes} (hx : x ≠ []) (c : Nat) (m : Memory) :
    memRead c (memWrite c x m) = x := by
  induction m with
  | nil => rw [memWrite, if_neg hx, memRead, if_pos rfl]
  | cons e m ih =>
    obtain ⟨k, y⟩ := e
    rw [memWrite, if_neg hx, if_neg hx]
    split
    · exact if_pos rfl
    · split
      · exact if_pos rfl
      · rename_i hne
        rw [memRead, if_neg (Ne.symm hne), ih]

/-- An insertion of one string in both keeps the epochs the same (R76, R78). -/
theorem sameEpoch_withEntry {x : Bytes}
    (hi : insertable (allocated s) x { s with nextCode := allocated s } = true) (h : SameEpoch s s') :
    SameEpoch (withEntry (allocated s) x s) (withEntry (allocated s) x s') := by
  obtain ⟨-, hreads⟩ := sameEpoch_allocated h
  obtain ⟨-, -, hhigh, hshort, -⟩ := (insertable_iff ..).mp hi
  rw [← withInserted_eq_withEntry, ← withInserted_eq_withEntry]
  refine ⟨rfl, fun c hlow hlt => ?_⟩
  rw [withInserted_nextCode hhigh] at hlt
  rw [withInserted_entry, withInserted_entry]
  by_cases hc : c = (allocated s).toNat
  · have hx : x ≠ [] := List.ne_nil_of_length_pos (by omega)
    rw [hc, memRead_memWrite_of_ne_nil hx, memRead_memWrite_of_ne_nil hx]
  · rw [memRead_memWrite_other _ hc, memRead_memWrite_other _ hc]
    exact hreads c hlow (Nat.lt_of_le_of_ne (Nat.lt_succ_iff.mp hlt) hc)

theorem holds_congr (h : SameEpoch s s') (c : Nat) (x : Bytes) : Holds s c x ↔ Holds s' c x := by
  obtain ⟨hnext, hreads⟩ := h
  simp only [Holds, ← hnext]
  exact and_congr_right fun hlow => and_congr_right fun hlt => by rw [hreads c hlow hlt]

theorem dictDlookup_congr (h : SameEpoch s s') (c : Code) : dictDlookup c s = dictDlookup c s' := by
  obtain ⟨hnext, hreads⟩ := h
  simp only [dictDlookup, ← hnext, numLiterals_eq]
  by_cases hlit : c.toNat < 256
  · rw [if_pos hlit, if_pos hlit]
  · by_cases hlt : c.toNat < s.nextCode.toNat
    · rw [hreads _ (Nat.le_of_not_lt hlit) hlt]
    · rw [if_neg hlt, if_neg hlt]

/-- The first byte that DS_NEXT appends, against the code n (R88). -/
theorem firstChar_congr (h : SameEpoch s s') (hcur : s.curStr = s'.curStr) (r n : Code) :
    firstChar r n s = firstChar r n s' := by
  rw [firstChar, firstChar, dictDlookup_congr h, hcur]

/-- In memories in canonical form a lookup sees the strings of the epoch alone (R75). -/
theorem dictElookup_congr (h : SameEpoch s s') (hwf : s.entry.wf = true) (hwf' : s'.entry.wf = true) {x : Bytes}
    (hx : x ≠ []) : dictElookup x s = dictElookup x s' := by
  obtain ⟨b, rfl⟩ | hlen : (∃ b, x = [b]) ∨ 2 ≤ x.length := by
    match x, hx with
    | [b], _ => exact .inl ⟨b, rfl⟩
    | _ :: _ :: _, _ => exact .inr (by simp)
  · rfl
  · symm
    cases e : dictElookup x s with
    | none =>
      have habsent := dictElookup_absent (by omega) hx e
      exact dictElookup_eq_none hwf' hlen fun d hd => habsent d ((holds_congr h d x).mpr hd)
    | some k =>
      have hk : Holds s k.toNat x := dictElookup_holds hwf (by omega) e
      exact dictElookup_eq_some hwf' hlen ((holds_congr h _ x).mp hk) fun d hlt hd =>
        Nat.not_lt.mpr (dictElookup_le hwf hlen e ((holds_congr h d x).mpr hd)) hlt

/-! ### STATUS -/

theorem statusReg_congr (hmode : s.mode = s'.mode) (hbusy : s.busy = s'.busy) (hfcode : s.fcode = s'.fcode)
    (htail : s.tailDrop = s'.tailDrop) (htrunc : s.truncSent = s'.truncSent) (hname : s.nameOpen = s'.nameOpen)
    (hsbuf : s.sbuf = s'.sbuf) (hline : s.lineOpen = s'.lineOpen) (hdstate : s.dstate = s'.dstate) :
    statusReg s = statusReg s' := by
  rw [statusReg, statusReg, sValid, sValid, hmode, hbusy, hfcode, htail, htrunc, hname, hsbuf, hline, hdstate]

end Sys2Proof.Proofs.TwoRuns

/-! A compress operation does not depend on the past (70_reset_and_hazards.md R122): from two states that agree in the
registers a compress operation reads, each compress command leads to two states that agree in them again. -/

namespace Sys2Proof.Proofs.CompressRuns

open Sys2Proof.Machine Sys2Proof.Claims Sys2Proof.Proofs.Moves Sys2Proof.Proofs.Commands Sys2Proof.Proofs.Encoder
  Sys2Proof.Proofs.TwoRuns

variable {s₁ s₂ s s' t p : State} {i : Instr} {r : Rule}

/-- The registers of s that a compress operation reads, in a state with everything else as in p. -/
def compressOver (s p : State) : State :=
  { p with
    mode := s.mode, busy := s.busy, nfiles := s.nfiles, fidx := s.fidx, nameOpen := s.nameOpen
    tailDrop := s.tailDrop, truncSent := s.truncSent, wbits := s.wbits, wcnt := s.wcnt, nextCode := s.nextCode
    sbuf := s.sbuf }

/-- The states t and t' of two runs from s₁ and s₂: the registers a compress operation reads agree, AOUT has gained
the same bytes, and what agreed at the start of the registers that it does not read agrees still. -/
structure Agree (s₁ s₂ t t' : State) : Prop where
  seen : compressOver t t' = t'
  epoch : SameEpoch t t'
  wf : t.entry.wf = true
  wf' : t'.entry.wf = true
  aout : ∃ x, t.aout = s₁.aout ++ x ∧ t'.aout = s₂.aout ++ x
  fault : SameFault s₁ s₂ → SameFault t t'
  lineOpen : s₁.lineOpen = s₂.lineOpen → t.lineOpen = t'.lineOpen
  dstate : s₁.dstate = s₂.dstate → t.dstate = t'.dstate

section
variable (h : Agree s₁ s₂ s (compressOver s p))
include h

/-- A fault writes the same in both (R113). -/
theorem agree_raise (f : FCode) (w : Word) (j : FInfo) :
    Agree s₁ s₂ (raise f w j s) (raise f w j (compressOver s p)) :=
  { h with seen := rfl, fault := fun _ => ⟨rfl, rfl, rfl⟩ }

/-- BC_WRITE reads the write BitBuffer alone (R64). -/
theorem agree_bcWrite (k : Code) : Agree s₁ s₂ (bcWrite k s) (bcWrite k (compressOver s p)) :=
  { h with seen := rfl, aout := gained_append h.aout _ }

theorem agree_closeSegment : Agree s₁ s₂ (closeSegment s) (closeSegment (compressOver s p)) :=
  { agree_bcWrite h _ with seen := rfl }

theorem dictElookup_over {x : Bytes} (hx : x ≠ []) : dictElookup x (compressOver s p) = dictElookup x s :=
  (dictElookup_congr h.epoch h.wf h.wf' hx).symm

/-- The mismatch branch of C_DATA: the code of S, the allocated code and the insertion agree (R80). -/
theorem tracks_emitAndInsert (b : Byte) (hs : s.sbuf ≠ []) :
    Tracks (Agree s₁ s₂) (emitAndInsert [b] s) (emitAndInsert [b] (compressOver s p)) := by
  intro t e
  obtain ⟨k, n, hk, hn, hi, -⟩ := emitAndInsert_next e
  rw [dictAlloc_eq_allocated] at hn
  obtain rfl : n = allocated s := hn
  obtain ⟨hlow, hlen⟩ := bounds_of_insertable hi
  have hlen' : s.sbuf.length ≤ 3840 := Nat.le_of_lt_succ (by simpa using hlen)
  cases (emitAndInsert_found hs hk hlen' hlow).symm.trans e
  have hk' := (dictElookup_over h hs).trans hk
  refine ⟨_, emitAndInsert_found (s := compressOver s p) hs hk' hlen' hlow, ?_⟩
  exact { agree_bcWrite h k with
    seen := rfl
    epoch := sameEpoch_withEntry (s := bcWrite k s) hi (agree_bcWrite h k).epoch
    wf := memWrite_wf _ _ h.wf
    wf' := memWrite_wf _ _ h.wf' }

/-- C_DATA looks up S with the new byte (R80). -/
theorem tracks_encodeByte (b : Byte) :
    Tracks (Agree s₁ s₂) (encodeByte b s) (encodeByte b (compressOver s p)) := by
  have hsbuf : (compressOver s p).sbuf = s.sbuf := rfl
  have hx : s.sbuf ++ immString b ≠ [] := by simp [immString]
  rw [encodeByte, encodeByte, hsbuf, dictElookup_over h hx]
  by_cases hs : s.sbuf = []
  · rw [if_pos hs, if_pos hs]
    exact tracks_next { h with seen := rfl }
  · rw [if_neg hs, if_neg hs]
    cases dictElookup (s.sbuf ++ immString b) s with
    | none => exact tracks_emitAndInsert h _ hs
    | some k => exact tracks_next { h with seen := rfl }

/-- C_FEND writes the code of S, if there is one, and the sentinel (R81). -/
theorem tracks_endSegment : Tracks (Agree s₁ s₂) (endSegment s) (endSegment (compressOver s p)) := by
  have hsbuf : (compressOver s p).sbuf = s.sbuf := rfl
  rw [endSegment, endSegment, hsbuf]
  by_cases hs : s.sbuf = []
  · rw [if_pos hs, if_pos hs]
    exact tracks_next (agree_closeSegment h)
  · rw [if_neg hs, if_neg hs, dictElookup_over h hs]
    cases dictElookup s.sbuf s with
    | none => exact tracks_fault
    | some k => exact tracks_next (agree_closeSegment (p := bcWrite k (compressOver s p)) (agree_bcWrite h k))

/-- The rule of a compress command tests only registers that agree. -/
theorem tracks_rule (hr : ruleOf i = some r) (hi : compressInstr i = true) :
    Tracks (Agree s₁ s₂) (r.body s) (r.body (compressOver s p)) := by
  cases i with
  | cStart =>
    cases hr
    exact tracks_next { h with seen := rfl, epoch := sameEpoch_of_newEpoch rfl rfl }
  | cNameb b =>
    cases hr
    exact tracks_ite (tracks_next (agree_raise h ..))
      (tracks_next { h with seen := rfl, aout := gained_append h.aout _ })
  | cNameend | cHdrend =>
    cases hr
    exact tracks_ite (tracks_next (agree_raise h ..)) (tracks_ite (tracks_next (agree_raise h ..))
      (tracks_next { h with seen := rfl, aout := gained_append h.aout _ }))
  | cFbegin =>
    cases hr
    exact tracks_ite (tracks_next (agree_raise h ..))
      (tracks_next { h with seen := rfl, epoch := sameEpoch_of_newEpoch rfl rfl })
  | cData b => cases hr; exact tracks_encodeByte h b
  | cFend => cases hr; exact tracks_endSegment h
  | cFinish =>
    cases hr
    exact tracks_ite (tracks_next (agree_raise h ..)) (tracks_next { h with seen := rfl })
  | dStart | dName | dFile | dFinish => cases hi
  | abort | illegalOp0 | illegalOpE | illegalOpF | bcWrite | bcRead | bcWclr | bcRclr | dictReset | dictAlloc
  | dictElookup | dictEinsert | dictDlookup | dictDinsert | uopReserved | sent | lit | dyn => cases hi

end

theorem exists_ruleOf_of_compressInstr (hi : compressInstr i = true) : ∃ r, ruleOf i = some r := by
  cases i with
  | cStart | cNameb | cNameend | cHdrend | cFbegin | cData | cFend | cFinish => exact ⟨_, rfl⟩
  | dStart | dName | dFile | dFinish | abort | illegalOp0 | illegalOpE | illegalOpF | bcWrite | bcRead | bcWclr
  | bcRclr | dictReset | dictAlloc | dictElookup | dictEinsert | dictDlookup | dictDinsert | uopReserved | sent
  | lit | dyn => cases hi

theorem tracks_exec (hi : compressInstr i = true) (h : Agree s₁ s₂ s s') :
    Tracks (Agree s₁ s₂) (exec i s) (exec i s') := by
  obtain ⟨r, hr⟩ := exists_ruleOf_of_compressInstr hi
  rw [exec_of_ruleOf hr, exec_of_ruleOf hr]
  obtain ⟨p, rfl⟩ : ∃ p, s' = compressOver s p := ⟨s', h.seen.symm⟩
  exact tracks_command rfl rfl h (tracks_rule h hr hi) (agree_raise h ..)

theorem runInstrs_cons {is : List Instr} (e : exec i s = .next t) :
    runInstrs (i :: is) s = runInstrs is t := by
  rw [runInstrs, e]

/-- A run that ends goes on after its first instruction. -/
theorem exists_exec_of_runInstrs {is : List Instr} {u : State} (e : runInstrs (i :: is) s = some u) :
    ∃ t, exec i s = .next t ∧ runInstrs is t = some u := by
  rw [runInstrs] at e
  split at e
  · rename_i t ht
    exact ⟨t, ht, e⟩
  · cases e
  · cases e

theorem agree_runInstrs {is : List Instr} {u : State} (his : ∀ i ∈ is, compressInstr i = true)
    (h : Agree s₁ s₂ s s') (e : runInstrs is s = some u) : ∃ u', runInstrs is s' = some u' ∧ Agree s₁ s₂ u u' := by
  induction is generalizing s s' with
  | nil =>
    cases e
    exact ⟨s', rfl, h⟩
  | cons i is ih =>
    obtain ⟨hi, his⟩ := List.forall_mem_cons.mp his
    obtain ⟨t, ht, e⟩ := exists_exec_of_runInstrs e
    obtain ⟨t', ht', hagree⟩ := tracks_exec hi h t ht
    rw [runInstrs_cons ht']
    exact ih his hagree e

/-- C_START writes every register that a compress operation reads (R98, R122). -/
theorem exists_agree_of_cStart (hs₁ : Ready .idle s₁) (hs₂ : Ready .idle s₂) (hwf₁ : s₁.entry.wf = true)
    (hwf₂ : s₂.entry.wf = true) :
    ∃ t t', exec .cStart s₁ = .next t ∧ exec .cStart s₂ = .next t' ∧ Agree s₁ s₂ t t' := by
  refine ⟨_, _, exec_of_ready (i := .cStart) rfl hs₁, exec_of_ready (i := .cStart) rfl hs₂, ?_⟩
  have hbusy : s₁.busy = s₂.busy := hs₁.1.trans hs₂.1.symm
  exact {
    seen := by simp [compressOver, hbusy]
    epoch := sameEpoch_of_newEpoch rfl rfl
    wf := hwf₁
    wf' := hwf₂
    aout := ⟨[], (List.append_nil _).symm, (List.append_nil _).symm⟩
    fault := id
    lineOpen := id
    dstate := id }

/-- Settles O58: after C_START the two runs agree, and every compress command keeps it so. -/
theorem compressDoesNotDependOnThePast : Obligations.CompressDoesNotDependOnThePast := by
  unfold Obligations.CompressDoesNotDependOnThePast
  intro is s₁ s₂ t₁ his hs₁ hs₂ hwf₁ hwf₂ e
  obtain ⟨u, u', hu, hu', hstart⟩ := exists_agree_of_cStart hs₁ hs₂ hwf₁ hwf₂
  rw [runInstrs_cons hu] at e
  obtain ⟨t₂, e', h⟩ := agree_runInstrs his hstart e
  obtain ⟨x, haout, haout'⟩ := h.aout
  obtain ⟨p, rfl⟩ : ∃ p, t₂ = compressOver t₁ p := ⟨t₂, h.seen.symm⟩
  refine ⟨_, x, (runInstrs_cons hu').trans e', haout, haout', rfl, rfl, rfl, rfl, rfl, rfl, rfl, rfl, rfl, rfl, rfl,
    fun hfault => ⟨h.fault hfault, fun hline hdstate => ?_⟩⟩
  exact statusReg_congr rfl rfl (h.fault hfault).1 rfl rfl rfl rfl (h.lineOpen hline) (h.dstate hdstate)

end Sys2Proof.Proofs.CompressRuns

/-! A decompress operation does not depend on the past (70_reset_and_hazards.md R122): from two states that agree in
the registers a decompress operation reads, each step leads to two states that agree in them again. -/

namespace Sys2Proof.Proofs.DecompressRuns

open Sys2Proof.Machine Sys2Proof.Claims Sys2Proof.Proofs.Moves Sys2Proof.Proofs.Commands Sys2Proof.Proofs.Encoder
  Sys2Proof.Proofs.Dictionary Sys2Proof.Proofs.BitCodec Sys2Proof.Proofs.Decoder Sys2Proof.Proofs.TwoRuns

variable {s₁ s₂ s s' t u p : State} {i : Instr} {r : Rule} {c : Code}

/-- The registers and ports of s that a decompress operation reads, in a state with everything else as in p. -/
def decompressOver (s p : State) : State :=
  { p with
    mode := s.mode, busy := s.busy, nfiles := s.nfiles, fidx := s.fidx, lineOpen := s.lineOpen
    tailDrop := s.tailDrop, truncSent := s.truncSent, rbits := s.rbits, rcnt := s.rcnt, nextCode := s.nextCode
    curCode := s.curCode, curStr := s.curStr, dstate := s.dstate, ain := s.ain, cmdq := s.cmdq
    uopPort := s.uopPort }

/-- A word of D_NAME, D_FILE or D_FINISH (R58). -/
def DecompressWord (w : Word) : Prop := w = 0xA0000000#32 ∨ w = 0xB0000000#32 ∨ w = 0xC0000000#32

/-- The states t and t' of two runs from s₁ and s₂: the registers and ports a decompress operation reads agree, DOUT has
gained the same events, and what agreed at the start of the registers that it does not read agrees still. The words on
the command port are those of the operation. -/
structure Agree (s₁ s₂ t t' : State) : Prop where
  seen : decompressOver t t' = t'
  epoch : SameEpoch t t'
  noUop : t.uopPort = none
  words : ∀ w ∈ t.cmdq, DecompressWord w
  dout : ∃ x, t.dout = s₁.dout ++ x ∧ t'.dout = s₂.dout ++ x
  fault : SameFault s₁ s₂ → SameFault t t'
  nameOpen : s₁.nameOpen = s₂.nameOpen → t.nameOpen = t'.nameOpen
  sbuf : s₁.sbuf = s₂.sbuf → t.sbuf = t'.sbuf

theorem ainGet_cons {b : Byte} {rest : Bytes} (hain : s.ain = b :: rest) :
    ainGet s = (some b, { s with ain := rest }) := by
  rw [ainGet, hain]

theorem bcRead_over (s p : State) :
    bcRead (decompressOver s p) = ((bcRead s).1, decompressOver (bcRead s).2 p) := by
  rcases hp : pullBytes s.rbits.toNat s.rcnt.toNat s.ain with ⟨acc, n, rest⟩
  by_cases hn : n < 12
  · rw [bcRead_of_short hp hn, bcRead_of_short (s := decompressOver s p) hp hn]
    rfl
  · obtain ⟨m, rfl⟩ := Nat.exists_eq_add_of_le (Nat.le_of_not_lt hn)
    rw [bcRead_of_full hp, bcRead_of_full (s := decompressOver s p) hp]
    rfl

section
variable (h : Agree s₁ s₂ s (decompressOver s p))
include h

/-- A fault writes the same in both (R113). -/
theorem agree_raise (f : FCode) (w : Word) (j : FInfo) :
    Agree s₁ s₂ (raise f w j s) (raise f w j (decompressOver s p)) :=
  { h with seen := rfl, fault := fun _ => ⟨rfl, rfl, rfl⟩ }

theorem agree_segEnd : Agree s₁ s₂ (segEnd s) (segEnd (decompressOver s p)) :=
  { h with seen := rfl, dout := gained_append h.dout _ }

theorem agree_setCurrent (c : Code) (x : Bytes) :
    Agree s₁ s₂ (setCurrent c x s) (setCurrent c x (decompressOver s p)) :=
  { h with seen := rfl }

/-- EXHAUST tests the counts and the read BitBuffer (R93). -/
theorem agree_exhaust : Agree s₁ s₂ (exhaust s) (exhaust (decompressOver s p)) := by
  have htest : truncatedSentinel (decompressOver s p) = truncatedSentinel s := rfl
  rw [exhaust, exhaust, htest]
  split
  · exact agree_segEnd (p := { p with truncSent := true }) { h with seen := rfl }
  · exact agree_raise h ..

/-- BC_READ takes the same bytes off AIN (R67). -/
theorem agree_bcRead {o : Option Code} (hread : bcRead s = (o, u)) :
    bcRead (decompressOver s p) = (o, decompressOver u p) ∧ Agree s₁ s₂ u (decompressOver u p) := by
  refine ⟨by rw [bcRead_over, hread], ?_⟩
  obtain ⟨bs, rb, rc, rfl⟩ := eq_of_bcRead hread
  exact { h with seen := rfl }

/-- DN_STEP tests the byte, LINE_OPEN and NFILES (R105). -/
theorem agree_dnStep : Agree s₁ s₂ (dnStep s) (dnStep (decompressOver s p)) := by
  cases hain : s.ain with
  | nil =>
    rw [dnStep_nil hain, dnStep_nil (s := decompressOver s p) hain]
    exact agree_raise h ..
  | cons b rest =>
    rw [dnStep, dnStep, ainGet_cons hain, ainGet_cons (s := decompressOver s p) hain]
    have htaken : Agree s₁ s₂ { s with ain := rest } (decompressOver { s with ain := rest } p) :=
      { h with seen := rfl }
    have hput (e : DEvent) : ∃ x, s.dout ++ [e] = s₁.dout ++ x ∧ p.dout ++ [e] = s₂.dout ++ x :=
      gained_append h.dout [e]
    exact rel_ite { h with seen := rfl, dout := hput _ } (rel_ite
      (rel_ite (agree_raise htaken ..) { h with seen := rfl, dout := hput _ })
      (rel_ite (agree_raise htaken ..) { h with seen := rfl, dout := hput _ }))

/-- DS_FIRST looks the code up (R86). -/
theorem tracks_resolveFirst (c : Code) :
    Tracks (Agree s₁ s₂) (resolveFirst c s) (resolveFirst c (decompressOver s p)) := by
  rw [resolveFirst, resolveFirst, ← dictDlookup_congr h.epoch]
  cases dictDlookup c s with
  | none => exact tracks_next (agree_raise h ..)
  | some x => exact tracks_next (agree_setCurrent h ..)

/-- DS_NEXT where the current string grows: where the insertion is in its precondition, it is so in both (R88). -/
theorem tracks_resolveNext_insert {fc : Byte} (hc : c.toNat ≤ (allocated s).toNat)
    (hfc : firstChar c (allocated s) { s with nextCode := allocated s } = some fc)
    (hfc' : firstChar c (allocated s) { decompressOver s p with nextCode := allocated s } = some fc)
    (hshort : s.curStr.length < 3841) :
    Tracks (Agree s₁ s₂) (resolveNext c s) (resolveNext c (decompressOver s p)) := by
  intro t e
  obtain ⟨n, hn, ⟨hmiss, -⟩ | ⟨-, hlong, -⟩ | ⟨b, y, -, -, hb, hi, hy, -⟩⟩ := resolveNext_next e
  all_goals
    rw [dictAlloc_eq_allocated] at hn
    obtain rfl : n = allocated s := hn
  · exact absurd hmiss (Nat.not_lt.mpr hc)
  · exact absurd hlong (Nat.not_lt.mpr hshort)
  · obtain rfl : b = fc := Option.some.inj (hb.symm.trans hfc)
    obtain ⟨hlow, -⟩ := bounds_of_insertable hi
    have hcur : s.curStr ≠ [] := by
      obtain ⟨-, -, -, hlen, -⟩ := (insertable_iff ..).mp hi
      intro hnil
      simp [hnil] at hlen
    have hepoch := sameEpoch_withEntry hi h.epoch
    rw [withInserted_eq_withEntry] at hy
    have hy' := (dictDlookup_congr hepoch c).symm.trans hy
    rw [dictDlookup_eq_stringOf] at hy hy'
    cases (resolveNext_insert hlow hcur (Nat.le_of_lt_succ hshort) hc hfc hy).symm.trans e
    exact ⟨_, resolveNext_insert (s := decompressOver s p) hlow hcur (Nat.le_of_lt_succ hshort) hc hfc' hy',
      { h with seen := rfl, epoch := hepoch }⟩

/-- DS_NEXT allocates, finds the first byte, inserts and looks the code up, all in the epoch (R88). -/
theorem tracks_resolveNext (c : Code) :
    Tracks (Agree s₁ s₂) (resolveNext c s) (resolveNext c (decompressOver s p)) := by
  have hepoch := sameEpoch_allocated h.epoch
  by_cases hmiss : (allocated s).toNat < c.toNat
  · rw [resolveNext_miss hmiss, resolveNext_miss (s := decompressOver s p) hmiss]
    exact tracks_next { h with seen := rfl, epoch := hepoch, fault := fun _ => ⟨rfl, rfl, rfl⟩ }
  have hc : c.toNat ≤ (allocated s).toNat := Nat.le_of_not_lt hmiss
  cases hfc : firstChar c (allocated s) { s with nextCode := allocated s } with
  | none =>
    have hstop : resolveNext c s = .fault .emptyString := by
      simp only [resolveNext, dictAlloc_eq_allocated, if_neg hmiss, hfc]
    rw [hstop]
    exact tracks_fault
  | some fc =>
    have hfc' := (firstChar_congr hepoch rfl c (allocated s)).symm.trans hfc
    by_cases hlong : 3841 ≤ s.curStr.length
    · rw [resolveNext_tooLong hc hfc hlong, resolveNext_tooLong (s := decompressOver s p) hc hfc' hlong]
      exact tracks_next { h with seen := rfl, epoch := hepoch, fault := fun _ => ⟨rfl, rfl, rfl⟩ }
    · exact tracks_resolveNext_insert h hc hfc hfc' (Nat.lt_of_not_le hlong)

theorem tracks_resolveCode {d : DState} (hdec : Decoding d s) (hd : d ≠ .emit) (c : Code) :
    Tracks (Agree s₁ s₂) (resolveCode c s) (resolveCode c (decompressOver s p)) := by
  cases d with
  | first =>
    rw [resolveCode_first hdec, resolveCode_first (s := decompressOver s p) hdec]
    exact tracks_resolveFirst h c
  | next =>
    rw [resolveCode_inNext hdec, resolveCode_inNext (s := decompressOver s p) hdec]
    exact tracks_resolveNext h c
  | emit => exact absurd rfl hd

/-- The codes by their class (R50). -/
theorem tracks_code {d : DState} (hdec : Decoding d s) (hd : d ≠ .emit) (c : Code) :
    Tracks (Agree s₁ s₂) (exec (decodeCode c) s) (exec (decodeCode c) (decompressOver s p)) := by
  by_cases hc : c = 0xFFF#12
  · rw [hc]
    exact tracks_ite (tracks_next (agree_segEnd h)) tracks_fault
  · rw [exec_decodeCode hc, exec_decodeCode hc]
    exact tracks_resolveCode h hdec hd c

theorem tracks_exec (hi : i = .dName ∨ i = .dFile ∨ i = .dFinish) :
    Tracks (Agree s₁ s₂) (exec i s) (exec i (decompressOver s p)) := by
  obtain rfl | rfl | rfl := hi
  · exact tracks_command rfl rfl h (tracks_next { h with seen := rfl }) (agree_raise h ..)
  · refine tracks_command rfl rfl h (tracks_ite (tracks_next (agree_raise h ..)) ?_) (agree_raise h ..)
    exact tracks_next { h with seen := rfl, epoch := sameEpoch_of_newEpoch rfl rfl }
  · refine tracks_command rfl rfl h (tracks_ite (tracks_next (agree_raise h ..)) ?_) (agree_raise h ..)
    exact tracks_next { h with seen := rfl }

end

theorem decodeCmd_of_decompressWord {w : Word} (hw : DecompressWord w) :
    ∃ i, (i = .dName ∨ i = .dFile ∨ i = .dFinish) ∧ decodeCmd w = .ok i := by
  obtain rfl | rfl | rfl := hw
  · exact ⟨_, .inl rfl, rfl⟩
  · exact ⟨_, .inr (.inl rfl), rfl⟩
  · exact ⟨_, .inr (.inr rfl), rfl⟩

/-- Every move of a decompress operation keeps the two states together. -/
theorem tracks_step (h : Agree s₁ s₂ s s') : Tracks (Agree s₁ s₂) (step s) (step s') := by
  obtain ⟨p, rfl⟩ : ∃ p, s' = decompressOver s p := ⟨s', h.seen.symm⟩
  intro t e
  cases move_of_step e with
  | uop w port run => exact absurd (h.noUop.symm.trans port) nofun
  | name port busy mode eq =>
    exact ⟨_, Runs.step_name (s := decompressOver s p) port busy mode, eq ▸ agree_dnStep h⟩
  | emit port busy mode dstate eq =>
    subst eq
    exact ⟨_, step_emit (s := decompressOver s p) port ⟨busy, mode, dstate⟩,
      { h with seen := rfl, dout := gained_append h.dout _ }⟩
  | code port busy mode dstate c u read run =>
    obtain ⟨read', hagree⟩ := agree_bcRead h read
    have hdec : Decoding s.dstate s := ⟨busy, mode, rfl⟩
    rw [step_code (s := decompressOver s p) port hdec dstate read']
    exact tracks_code hagree (decoding_of_bcRead read hdec) dstate c t run
  | exhausted port busy mode dstate u read eq =>
    obtain ⟨read', hagree⟩ := agree_bcRead h read
    rw [step_exhausted (s := decompressOver s p) port ⟨busy, mode, rfl⟩ dstate read', ← exhaust_eq_exhausted]
    exact ⟨_, rfl, eq ▸ agree_exhaust hagree⟩
  | wait port busy cmdq eq =>
    obtain ⟨-, -, -, hwait⟩ := Encoding.stepRunsDecodedInstruction
    exact ⟨_, hwait (decompressOver s p) port busy cmdq, eq ▸ h⟩
  | command port busy w rest i cmdq decode run =>
    obtain ⟨hw, hrest⟩ := List.forall_mem_cons.mp (cmdq ▸ h.words)
    obtain ⟨j, hj, hdec⟩ := decodeCmd_of_decompressWord hw
    obtain rfl : j = i := Decoded.ok.inj (hdec.symm.trans decode)
    rw [Dispatch.step_decoded (s := decompressOver s p) port busy cmdq decode]
    exact tracks_exec (s := { s with cmdq := rest }) { h with seen := rfl, words := hrest } hj t run
  | illegal port busy w rest r cmdq decode run =>
    obtain ⟨i, -, hdec⟩ := decodeCmd_of_decompressWord (h.words w (cmdq ▸ List.mem_cons_self))
    exact absurd (hdec.symm.trans decode) nofun

/-- A run that ends goes on after its first step. -/
theorem exists_step_of_run {M : Host.Core} {s t : M.State} {k : Nat} (e : M.run (k + 1) s = .next t) :
    ∃ u, M.step s = .next u ∧ M.run k u = .next t := by
  rw [Host.Core.run] at e
  split at e
  · rename_i u hu
    exact ⟨u, hu, e⟩
  · cases e
  · cases e

theorem agree_run {k : Nat} (h : Agree s₁ s₂ s s') (e : Host.Core.run Sys2Proof.core k s = .next t) :
    ∃ t', Host.Core.run Sys2Proof.core k s' = .next t' ∧ Agree s₁ s₂ t t' := by
  induction k generalizing s s' with
  | zero =>
    cases e
    exact ⟨s', rfl, h⟩
  | succ k ih =>
    obtain ⟨u, hu, e⟩ := exists_step_of_run (M := Sys2Proof.core) e
    obtain ⟨u', hu', hagree⟩ := tracks_step h u hu
    rw [Runs.run_succ (M := Sys2Proof.core) hu']
    exact ih hagree e

/-- The step that accepts D_START (R104). -/
theorem step_dStart {ws : List Word} (hs : Ready .idle s) (hp : s.uopPort = none)
    (hq : s.cmdq = 0x90000000#32 :: ws) : step s = openDecompress { s with cmdq := ws } :=
  (Dispatch.step_decoded hp hs.1 hq (i := .dStart) rfl).trans
    (exec_of_ready (i := .dStart) (s := { s with cmdq := ws }) rfl hs)

/-- D_START writes every register that a decompress operation reads (R104, R122). -/
theorem exists_agree_of_dStart {ws : List Word} (hws : ∀ w ∈ ws, DecompressWord w) (hs₁ : Ready .idle s₁)
    (hs₂ : Ready .idle s₂) (hp₁ : s₁.uopPort = none) (hp₂ : s₂.uopPort = none) (hain : s₁.ain = s₂.ain)
    (hq₁ : s₁.cmdq = 0x90000000#32 :: ws) (hq₂ : s₂.cmdq = 0x90000000#32 :: ws) :
    ∃ t t', step s₁ = .next t ∧ step s₂ = .next t' ∧ Agree s₁ s₂ t t' := by
  refine ⟨_, _, step_dStart hs₁ hp₁ hq₁, step_dStart hs₂ hp₂ hq₂, ?_⟩
  have hbusy : s₁.busy = s₂.busy := hs₁.1.trans hs₂.1.symm
  exact {
    seen := by simp [decompressOver, hbusy, hain, hp₁, hp₂]
    epoch := sameEpoch_of_newEpoch rfl rfl
    noUop := hp₁
    words := hws
    dout := ⟨[], (List.append_nil _).symm, (List.append_nil _).symm⟩
    fault := id
    nameOpen := id
    sbuf := id }

/-- Settles O59: after the step of D_START the two runs agree, and every step keeps it so. -/
theorem decompressDoesNotDependOnThePast : Obligations.DecompressDoesNotDependOnThePast := by
  unfold Obligations.DecompressDoesNotDependOnThePast
  intro k ws s₁ s₂ t₁ hws hs₁ hs₂ hp₁ hp₂ hain hq₁ hq₂ e
  obtain ⟨u, u', hu, hu', hstart⟩ := exists_agree_of_dStart hws hs₁ hs₂ hp₁ hp₂ hain hq₁ hq₂
  rw [Runs.run_succ (M := Sys2Proof.core) hu] at e
  obtain ⟨t₂, e', h⟩ := agree_run hstart e
  obtain ⟨x, hdout, hdout'⟩ := h.dout
  obtain ⟨p, rfl⟩ : ∃ p, t₂ = decompressOver t₁ p := ⟨t₂, h.seen.symm⟩
  refine ⟨_, x, (Runs.run_succ (M := Sys2Proof.core) hu' k).trans e', hdout, hdout', rfl, rfl, rfl, rfl, rfl, rfl, rfl,
    rfl, rfl, rfl, rfl, rfl, rfl, rfl, rfl, fun hfault => ⟨h.fault hfault, fun hname hsbuf => ?_⟩⟩
  exact statusReg_congr rfl rfl (h.fault hfault).1 rfl rfl (h.nameOpen hname) (h.sbuf hsbuf) rfl rfl

end Sys2Proof.Proofs.DecompressRuns

/-! Reset (70_reset_and_hazards.md R121): the values of the registers, and the invariant. -/

namespace Sys2Proof.Proofs.Reset

open Sys2Proof.Machine Sys2Proof.Claims

theorem resetValues_resetRegisters (s : State) : ResetValues (resetRegisters s) := by
  simp [ResetValues, FInfo.zero, noInfo]

/-- Reset is what ABORT makes of itself: it holds the values that ABORT writes. -/
theorem resetValues_reset : ResetValues State.reset := resetValues_resetRegisters State.reset

/-- Settles O7: the registers that ABORT leaves are those of reset, and the window is read address by address. -/
theorem resetReadsAsPowerOn : Obligations.ResetReadsAsPowerOn := by
  unfold Obligations.ResetReadsAsPowerOn
  exact ⟨resetValues_reset, by decide,
    fun s hb => ⟨_, if_neg (Bool.eq_false_iff.mp hb), resetValues_resetRegisters s, rfl, rfl, rfl⟩⟩

/-- In reset the epoch and S are empty, and every other fact is about a value of R121. -/
theorem inv_reset : Inv State.reset where
  memWf := rfl
  nextLow := by decide
  dense c hlow hlt := absurd hlt (Nat.not_lt.mpr hlow)
  wbuf := by decide
  wbufHeader := nofun
  rbuf := by decide
  counts := by decide
  segmentNamed := by decide
  bodyNamed := nofun
  busyMode := nofun
  dfileBusy := nofun
  matchMode hs := absurd rfl hs
  matchPrefixes k hlen hk := absurd (Nat.le_trans hlen hk) (by decide)
  curLength := by decide
  curPresent := nofun
  firstEmpty := nofun
  faultMode := by decide
  faultClear _ := ⟨rfl, rfl⟩
  nameOpenMode := nofun
  lineOpenMode := nofun
  noUop := rfl

/-- Settles O40: IDLE is no mode of a compress operation, so that distinct entries are not asked for. -/
theorem resetSatisfiesTheInvariant : Obligations.ResetSatisfiesTheInvariant := by
  unfold Obligations.ResetSatisfiesTheInvariant
  exact ⟨inv_reset, nofun⟩

end Sys2Proof.Proofs.Reset

/-! A byte behind an archive that ends in a truncated sentinel (70_reset_and_hazards.md R128). -/

namespace Sys2Proof.Proofs.FinalRead

open Sys2Proof.Machine Sys2Proof.Claims Sys2Proof.Proofs.Packing Sys2Proof.Proofs.BitCodec

variable {s : State} {y : Byte} {rest : Bytes}

/-- BC_READ of the two bytes answers the first and the top half of the second (R67). -/
theorem bcRead_of_two_bytes {x : Byte} (hrcnt : s.rcnt = 0#4) (hain : s.ain = x :: y :: rest) :
    (bcRead s).1 = some (x ++ y.extractLsb' 4 4) := by
  have hcode : codeBits (x ++ y.extractLsb' 4 4) = byteBits x ++ msbBits 4 (y.toNat / 2 ^ 4) := by
    rw [← msbBits_mod 4 (y.toNat / 2 ^ 4), ← Nat.shiftRight_eq_div_pow, ← BitVec.extractLsb'_toNat]
    exact msbBits_append x _
  have hsplit : byteBits y = msbBits 4 (y.toNat / 2 ^ 4) ++ msbBits 4 y.toNat := msbBits_add 4 4 _
  have hbits : inputBits s = codeBits (x ++ y.extractLsb' 4 4) ++ (msbBits 4 y.toNat ++ rest.flatMap byteBits) := by
    rw [inputBits, hrcnt, hain, hcode, List.flatMap_cons, List.flatMap_cons, hsplit]
    simp [msbBits]
  exact (bcRead_of_inputBits (by rw [hrcnt]; decide) hbits).1

/-- Settles O57: the four bits of y that complete the code are ones exactly from 0xF0 on. -/
theorem appendedByteChangesTheFinalRead : Obligations.AppendedByteChangesTheFinalRead := by
  unfold Obligations.AppendedByteChangesTheFinalRead
  intro s y rest hrcnt hain
  have hread := bcRead_of_two_bytes hrcnt hain
  refine ⟨hread, ?_⟩
  have hlt := y.isLt
  rw [hread, Option.some_inj, ← BitVec.toNat_inj, ReadWindow.append_toNat, BitVec.extractLsb'_toNat,
    Nat.shiftRight_eq_div_pow, BitVec.toNat_ofNat, BitVec.toNat_ofNat]
  omega

end Sys2Proof.Proofs.FinalRead

/-! Who writes the BitBuffers and NEXT among the commands and codes (70_reset_and_hazards.md R127). -/

namespace Sys2Proof.Proofs.Lifetimes

open Sys2Proof.Machine Sys2Proof.Proofs.Moves

variable {i : Instr} {s t : State} {r : Rule}

/-- The commands and codes that write the write BitBuffer (R21). -/
def WbufWriter (i : Instr) : Prop := i = .cStart ∨ i = .abort ∨ i = .cFend ∨ ∃ b, i = .cData b

/-- The commands and codes that write the read BitBuffer (R22); BC_READ is in the fetch of a code. -/
def RbufWriter (i : Instr) : Prop := i = .dStart ∨ i = .abort

/-- The commands and codes that start an epoch or insert (R23). -/
def NextWriter (i : Instr) : Prop :=
  i = .cStart ∨ i = .dStart ∨ i = .abort ∨ i = .cFbegin ∨ i = .dFile ∨
    (∃ b, i = .cData b) ∨ (∃ d, i = .lit d) ∨ ∃ c, i = .dyn c

/-- The move of i from s to t keeps the write BitBuffer, the read BitBuffer and NEXT, each unless i writes it. -/
structure ChangesOnlyAsWriter (i : Instr) (s t : State) : Prop where
  wbuf : WbufWriter i ∨ (t.wbits, t.wcnt) = (s.wbits, s.wcnt)
  rbuf : RbufWriter i ∨ (t.rbits, t.rcnt) = (s.rbits, s.rcnt)
  next : NextWriter i ∨ t.nextCode = s.nextCode

/-- A move that writes none of the three. -/
theorem ChangesOnlyAsWriter.kept (hw : (t.wbits, t.wcnt) = (s.wbits, s.wcnt))
    (hr : (t.rbits, t.rcnt) = (s.rbits, s.rcnt)) (hn : t.nextCode = s.nextCode) : ChangesOnlyAsWriter i s t :=
  ⟨.inr hw, .inr hr, .inr hn⟩

/-- A writer of NEXT that leaves the BitBuffers alone. -/
theorem ChangesOnlyAsWriter.ofNext (hi : NextWriter i) (hw : (t.wbits, t.wcnt) = (s.wbits, s.wcnt))
    (hr : (t.rbits, t.rcnt) = (s.rbits, s.rcnt)) : ChangesOnlyAsWriter i s t :=
  ⟨.inr hw, .inr hr, .inl hi⟩

theorem encodeByte_rbuf {b : Byte} (h : encodeByte b s = .next t) : (t.rbits, t.rcnt) = (s.rbits, s.rcnt) := by
  obtain ⟨-, rfl⟩ | ⟨-, -, rfl⟩ | ⟨-, -, hemit⟩ := encodeByte_next h
  · rfl
  · rfl
  · obtain ⟨k, n, -, -, -, rfl⟩ := emitAndInsert_next hemit
    rfl

/-- The rule of a command. -/
theorem rule_changesOnlyAsWriter (hr : ruleOf i = some r) (h : r.body s = .next t) : ChangesOnlyAsWriter i s t := by
  cases i with
  | cStart =>
    cases hr
    cases h
    exact ⟨.inl (.inl rfl), .inr rfl, .inl (.inl rfl)⟩
  | dStart =>
    cases hr
    cases h
    exact ⟨.inr rfl, .inl (.inl rfl), .inl (.inr (.inl rfl))⟩
  | cNameb b =>
    cases hr
    obtain ⟨-, rfl⟩ | ⟨-, rfl⟩ := nameByte_next h
    all_goals exact .kept rfl rfl rfl
  | cNameend =>
    cases hr
    obtain ⟨-, rfl⟩ | ⟨-, -, rfl⟩ | ⟨-, -, rfl⟩ := nameEnd_next h
    all_goals exact .kept rfl rfl rfl
  | cHdrend =>
    cases hr
    obtain ⟨-, rfl⟩ | ⟨-, -, rfl⟩ | ⟨-, -, rfl⟩ := headerEnd_next h
    all_goals exact .kept rfl rfl rfl
  | cFbegin =>
    cases hr
    obtain ⟨-, rfl⟩ | ⟨-, rfl⟩ := beginSegment_next h
    all_goals exact .ofNext (by simp [NextWriter]) rfl rfl
  | cData b =>
    cases hr
    exact ⟨.inl (by simp [WbufWriter]), .inr (encodeByte_rbuf h), .inl (by simp [NextWriter])⟩
  | cFend =>
    cases hr
    obtain ⟨-, rfl⟩ | ⟨-, k, -, rfl⟩ := endSegment_next h
    all_goals exact ⟨.inl (by simp [WbufWriter]), .inr rfl, .inr rfl⟩
  | cFinish =>
    cases hr
    obtain ⟨-, rfl⟩ | ⟨-, rfl⟩ := closeCompress_next h
    all_goals exact .kept rfl rfl rfl
  | dName =>
    cases hr
    cases h
    exact .kept rfl rfl rfl
  | dFile =>
    cases hr
    obtain ⟨-, rfl⟩ | ⟨-, rfl⟩ := acceptFile_next h
    all_goals exact .ofNext (by simp [NextWriter]) rfl rfl
  | dFinish =>
    cases hr
    obtain ⟨-, rfl⟩ | ⟨-, rfl⟩ := closeDecompress_next h
    all_goals exact .kept rfl rfl rfl
  | abort | illegalOp0 | illegalOpE | illegalOpF | bcWrite | bcRead | bcWclr | bcRclr | dictReset | dictAlloc
  | dictElookup | dictEinsert | dictDlookup | dictDinsert | uopReserved | sent | lit | dyn => cases hr

theorem command_changesOnlyAsWriter (hr : ruleOf i = some r) (h : exec i s = .next t) :
    ChangesOnlyAsWriter i s t := by
  rw [exec_of_ruleOf hr] at h
  obtain ⟨-, ⟨-, rfl⟩ | ⟨-, -, hbody⟩ | ⟨-, -, rfl⟩⟩ := command_next h
  · exact .kept rfl rfl rfl
  · exact rule_changesOnlyAsWriter hr hbody
  · exact .kept rfl rfl rfl

theorem illegalWord_changesOnlyAsWriter {w : Word} (h : illegalWord w s = .next t) : ChangesOnlyAsWriter i s t := by
  obtain ⟨-, ⟨-, rfl⟩ | ⟨-, rfl⟩⟩ := illegalWord_next h
  all_goals exact .kept rfl rfl rfl

/-- A LIT or DYN code inserts and reads no bits: they are read before it runs. -/
theorem resolveCode_changesOnlyAsWriter {c : Code} (hi : NextWriter i) (h : resolveCode c s = .next t) :
    ChangesOnlyAsWriter i s t := by
  obtain ⟨-, -, ⟨-, hfirst⟩ | ⟨-, hnext⟩⟩ := resolveCode_next h
  · obtain ⟨-, rfl⟩ | ⟨x, -, rfl⟩ := resolveFirst_next hfirst
    all_goals exact .ofNext hi rfl rfl
  · obtain ⟨n, -, ⟨-, rfl⟩ | ⟨-, -, rfl⟩ | ⟨fc, y, -, -, -, -, -, rfl⟩⟩ := resolveNext_next hnext
    all_goals exact .ofNext hi rfl rfl

theorem exec_changesOnlyAsWriter (hi : microOperation i = false) (h : exec i s = .next t) :
    ChangesOnlyAsWriter i s t := by
  cases i with
  | cStart | cNameb | cNameend | cHdrend | cFbegin | cData | cFend | cFinish | dStart | dName | dFile
  | dFinish => exact command_changesOnlyAsWriter rfl h
  | abort => exact ⟨.inl (by simp [WbufWriter]), .inl (by simp [RbufWriter]), .inl (by simp [NextWriter])⟩
  | illegalOp0 | illegalOpE | illegalOpF => exact illegalWord_changesOnlyAsWriter h
  | sent =>
    obtain ⟨-, -, -, rfl⟩ := execSent_next h
    exact .kept rfl rfl rfl
  | lit | dyn => exact resolveCode_changesOnlyAsWriter (by simp [NextWriter]) h
  | bcWrite | bcRead | bcWclr | bcRclr | dictReset | dictAlloc | dictElookup | dictEinsert | dictDlookup
  | dictDinsert | uopReserved => cases hi

/-- Settles O50, by the kind of the instruction. -/
theorem bufferAndDictionaryWriters : Obligations.BufferAndDictionaryWriters := by
  unfold Obligations.BufferAndDictionaryWriters
  intro i s t hi h
  obtain ⟨hwbuf, hrbuf, hnext⟩ := exec_changesOnlyAsWriter hi h
  exact ⟨hwbuf.resolve_right, hrbuf.resolve_right, hnext.resolve_right⟩

end Sys2Proof.Proofs.Lifetimes
